-- ==== Sys2Proof/Word.lean ====
section
/-! DEFINITION. The widths of the machine, the thirteen addressing modes and the operand forms built from them. -/

namespace Sys2Proof

/-- A byte: every bus access moves exactly one (00_scope.md R7). -/
abbrev Byte := BitVec 8

/-- A 16-bit quantity: the program counter, a CPU address (00_scope.md R7). -/
abbrev Word := BitVec 16

/-- The thirteen addressing modes under the spec's codes (30_encoding.md R141). -/
inductive Mode where
  | imp | acc | imm | zp | zpx | zpy | abs | abx | aby | rel | izx | izy | ind
  deriving DecidableEq, Repr

/-- An addressing mode together with the operand bytes the instruction carries (30_encoding.md R140, R142):
none for IMP and ACC, one byte `d` for the modes of format F2, a 16-bit address `a` for those of format F3. -/
inductive Operand where
  | imp
  | acc
  | imm (d : Byte)
  | zp (d : Byte)
  | zpx (d : Byte)
  | zpy (d : Byte)
  | abs (a : Word)
  | abx (a : Word)
  | aby (a : Word)
  | rel (d : Byte)
  | izx (d : Byte)
  | izy (d : Byte)
  | ind (a : Word)
  deriving DecidableEq, Repr

/-- The addressing mode of an operand form. -/
def Operand.mode : Operand → Mode
  | .imp => .imp
  | .acc => .acc
  | .imm _ => .imm
  | .zp _ => .zp
  | .zpx _ => .zpx
  | .zpy _ => .zpy
  | .abs _ => .abs
  | .abx _ => .abx
  | .aby _ => .aby
  | .rel _ => .rel
  | .izx _ => .izx
  | .izy _ => .izy
  | .ind _ => .ind

end Sys2Proof
end

