-- ==== Sys2Proof/Syntax.lean ====
section
/-! DEFINITION. The instructions: one constructor for each instruction of spec/opcode_table.json. The table's rows of
one mnemonic are the operand forms of that instruction (LDA has eight rows and eight operand forms); the 105 rows of
the placeholder kind are the values of `mia`'s opcode byte. -/

namespace Sys2Proof

/-- The 56 documented instructions and the placeholder MIA (30_encoding.md R146, R148). An instruction with more
than one mode, or with operand bytes, carries its operand form; `mia` also carries its opcode. -/
inductive Instr where
  -- 41_load_store_transfer.md R200 to R211
  | lda (o : Operand)
  | ldx (o : Operand)
  | ldy (o : Operand)
  | sta (o : Operand)
  | stx (o : Operand)
  | sty (o : Operand)
  | tax
  | tay
  | txa
  | tya
  | tsx
  | txs
  -- 42_arithmetic_logic.md R221 to R236
  | adc (o : Operand)
  | sbc (o : Operand)
  | and (o : Operand)
  | ora (o : Operand)
  | eor (o : Operand)
  | bit (o : Operand)
  | cmp (o : Operand)
  | cpx (o : Operand)
  | cpy (o : Operand)
  | inc (o : Operand)
  | dec (o : Operand)
  | inx
  | iny
  | dex
  | dey
  -- 43_shift_rotate.md R251 to R254
  | asl (o : Operand)
  | lsr (o : Operand)
  | rol (o : Operand)
  | ror (o : Operand)
  -- 44_control_flow.md R260 to R271
  | jmp (o : Operand)
  | jsr (o : Operand)
  | rts
  | bpl (o : Operand)
  | bmi (o : Operand)
  | bvc (o : Operand)
  | bvs (o : Operand)
  | bcc (o : Operand)
  | bcs (o : Operand)
  | bne (o : Operand)
  | beq (o : Operand)
  -- 45_stack_flags_system.md R280 to R297
  | pha
  | php
  | pla
  | plp
  | clc
  | sec
  | cli
  | sei
  | cld
  | sed
  | clv
  | nop
  | rti
  | brk
  | mia (op : Byte) (o : Operand)
  deriving DecidableEq, Repr

end Sys2Proof
end

