-- ==== Sys2Proof/Decode.lean ====
section
/-! DEFINITION. The opcode table, the decoder, and after it the encoder. The decoder reads the 16 x 16 view of
30_encoding.md R147; the encoder reads the per-instruction rows of R145 and the placeholder lists of R150. -/

namespace Sys2Proof

/-! ## Byte order -/

/-- `{hi, lo}` (00_scope.md R9). -/
def wordOf (hi lo : Byte) : Word := hi ++ lo

/-- `hi(w)`, bits 15:8 (00_scope.md R9). -/
def hiByte (w : Word) : Byte := w.extractLsb' 8 8

/-- `lo(w)`, bits 7:0 (00_scope.md R9). -/
def loByte (w : Word) : Byte := w.extractLsb' 0 8

/-! ## The table -/

/-- The kind of a table entry: 56 mnemonics or MIA (30_encoding.md R144). -/
inductive Kind where
  | lda | ldx | ldy | sta | stx | sty | tax | tay
  | txa | tya | tsx | txs | adc | sbc | and | ora
  | eor | bit | cmp | cpx | cpy | inc | dec | inx
  | iny | dex | dey | asl | lsr | rol | ror | jmp
  | jsr | rts | bpl | bmi | bvc | bvs | bcc | bcs
  | bne | beq | pha | php | pla | plp | clc | sec
  | cli | sei | cld | sed | clv | nop | rti | brk
  | mia
  deriving DecidableEq, Repr

/-- A table entry `{instruction-kind, addressing-mode, base-cycle-count}` (30_encoding.md R144). `none` as the count
is MIA_CYCLES of the opcode, which is open (R150). -/
structure Entry where
  kind : Kind
  mode : Mode
  cycles : Option Nat
  deriving DecidableEq, Repr

/-- Row 0x of the view of 30_encoding.md R147. -/
def opRow0 : List Entry := [
  ⟨.brk, .imp, some 7⟩, ⟨.ora, .izx, some 6⟩, ⟨.mia, .imp, none⟩, ⟨.mia, .izx, none⟩,
  ⟨.mia, .zp, none⟩, ⟨.ora, .zp, some 3⟩, ⟨.asl, .zp, some 5⟩, ⟨.mia, .zp, none⟩,
  ⟨.php, .imp, some 3⟩, ⟨.ora, .imm, some 2⟩, ⟨.asl, .acc, some 2⟩, ⟨.mia, .imm, none⟩,
  ⟨.mia, .abs, none⟩, ⟨.ora, .abs, some 4⟩, ⟨.asl, .abs, some 6⟩, ⟨.mia, .abs, none⟩]

/-- Row 1x of the view of 30_encoding.md R147. -/
def opRow1 : List Entry := [
  ⟨.bpl, .rel, some 2⟩, ⟨.ora, .izy, some 5⟩, ⟨.mia, .imp, none⟩, ⟨.mia, .izy, none⟩,
  ⟨.mia, .zpx, none⟩, ⟨.ora, .zpx, some 4⟩, ⟨.asl, .zpx, some 6⟩, ⟨.mia, .zpx, none⟩,
  ⟨.clc, .imp, some 2⟩, ⟨.ora, .aby, some 4⟩, ⟨.mia, .imp, none⟩, ⟨.mia, .aby, none⟩,
  ⟨.mia, .abx, none⟩, ⟨.ora, .abx, some 4⟩, ⟨.asl, .abx, some 7⟩, ⟨.mia, .abx, none⟩]

/-- Row 2x of the view of 30_encoding.md R147. -/
def opRow2 : List Entry := [
  ⟨.jsr, .abs, some 6⟩, ⟨.and, .izx, some 6⟩, ⟨.mia, .imp, none⟩, ⟨.mia, .izx, none⟩,
  ⟨.bit, .zp, some 3⟩, ⟨.and, .zp, some 3⟩, ⟨.rol, .zp, some 5⟩, ⟨.mia, .zp, none⟩,
  ⟨.plp, .imp, some 4⟩, ⟨.and, .imm, some 2⟩, ⟨.rol, .acc, some 2⟩, ⟨.mia, .imm, none⟩,
  ⟨.bit, .abs, some 4⟩, ⟨.and, .abs, some 4⟩, ⟨.rol, .abs, some 6⟩, ⟨.mia, .abs, none⟩]

/-- Row 3x of the view of 30_encoding.md R147. -/
def opRow3 : List Entry := [
  ⟨.bmi, .rel, some 2⟩, ⟨.and, .izy, some 5⟩, ⟨.mia, .imp, none⟩, ⟨.mia, .izy, none⟩,
  ⟨.mia, .zpx, none⟩, ⟨.and, .zpx, some 4⟩, ⟨.rol, .zpx, some 6⟩, ⟨.mia, .zpx, none⟩,
  ⟨.sec, .imp, some 2⟩, ⟨.and, .aby, some 4⟩, ⟨.mia, .imp, none⟩, ⟨.mia, .aby, none⟩,
  ⟨.mia, .abx, none⟩, ⟨.and, .abx, some 4⟩, ⟨.rol, .abx, some 7⟩, ⟨.mia, .abx, none⟩]

/-- Row 4x of the view of 30_encoding.md R147. -/
def opRow4 : List Entry := [
  ⟨.rti, .imp, some 6⟩, ⟨.eor, .izx, some 6⟩, ⟨.mia, .imp, none⟩, ⟨.mia, .izx, none⟩,
  ⟨.mia, .zp, none⟩, ⟨.eor, .zp, some 3⟩, ⟨.lsr, .zp, some 5⟩, ⟨.mia, .zp, none⟩,
  ⟨.pha, .imp, some 3⟩, ⟨.eor, .imm, some 2⟩, ⟨.lsr, .acc, some 2⟩, ⟨.mia, .imm, none⟩,
  ⟨.jmp, .abs, some 3⟩, ⟨.eor, .abs, some 4⟩, ⟨.lsr, .abs, some 6⟩, ⟨.mia, .abs, none⟩]

/-- Row 5x of the view of 30_encoding.md R147. -/
def opRow5 : List Entry := [
  ⟨.bvc, .rel, some 2⟩, ⟨.eor, .izy, some 5⟩, ⟨.mia, .imp, none⟩, ⟨.mia, .izy, none⟩,
  ⟨.mia, .zpx, none⟩, ⟨.eor, .zpx, some 4⟩, ⟨.lsr, .zpx, some 6⟩, ⟨.mia, .zpx, none⟩,
  ⟨.cli, .imp, some 2⟩, ⟨.eor, .aby, some 4⟩, ⟨.mia, .imp, none⟩, ⟨.mia, .aby, none⟩,
  ⟨.mia, .abx, none⟩, ⟨.eor, .abx, some 4⟩, ⟨.lsr, .abx, some 7⟩, ⟨.mia, .abx, none⟩]

/-- Row 6x of the view of 30_encoding.md R147. -/
def opRow6 : List Entry := [
  ⟨.rts, .imp, some 6⟩, ⟨.adc, .izx, some 6⟩, ⟨.mia, .imp, none⟩, ⟨.mia, .izx, none⟩,
  ⟨.mia, .zp, none⟩, ⟨.adc, .zp, some 3⟩, ⟨.ror, .zp, some 5⟩, ⟨.mia, .zp, none⟩,
  ⟨.pla, .imp, some 4⟩, ⟨.adc, .imm, some 2⟩, ⟨.ror, .acc, some 2⟩, ⟨.mia, .imm, none⟩,
  ⟨.jmp, .ind, some 5⟩, ⟨.adc, .abs, some 4⟩, ⟨.ror, .abs, some 6⟩, ⟨.mia, .abs, none⟩]

/-- Row 7x of the view of 30_encoding.md R147. -/
def opRow7 : List Entry := [
  ⟨.bvs, .rel, some 2⟩, ⟨.adc, .izy, some 5⟩, ⟨.mia, .imp, none⟩, ⟨.mia, .izy, none⟩,
  ⟨.mia, .zpx, none⟩, ⟨.adc, .zpx, some 4⟩, ⟨.ror, .zpx, some 6⟩, ⟨.mia, .zpx, none⟩,
  ⟨.sei, .imp, some 2⟩, ⟨.adc, .aby, some 4⟩, ⟨.mia, .imp, none⟩, ⟨.mia, .aby, none⟩,
  ⟨.mia, .abx, none⟩, ⟨.adc, .abx, some 4⟩, ⟨.ror, .abx, some 7⟩, ⟨.mia, .abx, none⟩]

/-- Row 8x of the view of 30_encoding.md R147. -/
def opRow8 : List Entry := [
  ⟨.mia, .imm, none⟩, ⟨.sta, .izx, some 6⟩, ⟨.mia, .imm, none⟩, ⟨.mia, .izx, none⟩,
  ⟨.sty, .zp, some 3⟩, ⟨.sta, .zp, some 3⟩, ⟨.stx, .zp, some 3⟩, ⟨.mia, .zp, none⟩,
  ⟨.dey, .imp, some 2⟩, ⟨.mia, .imm, none⟩, ⟨.txa, .imp, some 2⟩, ⟨.mia, .imm, none⟩,
  ⟨.sty, .abs, some 4⟩, ⟨.sta, .abs, some 4⟩, ⟨.stx, .abs, some 4⟩, ⟨.mia, .abs, none⟩]

/-- Row 9x of the view of 30_encoding.md R147. -/
def opRow9 : List Entry := [
  ⟨.bcc, .rel, some 2⟩, ⟨.sta, .izy, some 6⟩, ⟨.mia, .imp, none⟩, ⟨.mia, .izy, none⟩,
  ⟨.sty, .zpx, some 4⟩, ⟨.sta, .zpx, some 4⟩, ⟨.stx, .zpy, some 4⟩, ⟨.mia, .zpy, none⟩,
  ⟨.tya, .imp, some 2⟩, ⟨.sta, .aby, some 5⟩, ⟨.txs, .imp, some 2⟩, ⟨.mia, .aby, none⟩,
  ⟨.mia, .abx, none⟩, ⟨.sta, .abx, some 5⟩, ⟨.mia, .aby, none⟩, ⟨.mia, .aby, none⟩]

/-- Row Ax of the view of 30_encoding.md R147. -/
def opRowA : List Entry := [
  ⟨.ldy, .imm, some 2⟩, ⟨.lda, .izx, some 6⟩, ⟨.ldx, .imm, some 2⟩, ⟨.mia, .izx, none⟩,
  ⟨.ldy, .zp, some 3⟩, ⟨.lda, .zp, some 3⟩, ⟨.ldx, .zp, some 3⟩, ⟨.mia, .zp, none⟩,
  ⟨.tay, .imp, some 2⟩, ⟨.lda, .imm, some 2⟩, ⟨.tax, .imp, some 2⟩, ⟨.mia, .imm, none⟩,
  ⟨.ldy, .abs, some 4⟩, ⟨.lda, .abs, some 4⟩, ⟨.ldx, .abs, some 4⟩, ⟨.mia, .abs, none⟩]

/-- Row Bx of the view of 30_encoding.md R147. -/
def opRowB : List Entry := [
  ⟨.bcs, .rel, some 2⟩, ⟨.lda, .izy, some 5⟩, ⟨.mia, .imp, none⟩, ⟨.mia, .izy, none⟩,
  ⟨.ldy, .zpx, some 4⟩, ⟨.lda, .zpx, some 4⟩, ⟨.ldx, .zpy, some 4⟩, ⟨.mia, .zpy, none⟩,
  ⟨.clv, .imp, some 2⟩, ⟨.lda, .aby, some 4⟩, ⟨.tsx, .imp, some 2⟩, ⟨.mia, .aby, none⟩,
  ⟨.ldy, .abx, some 4⟩, ⟨.lda, .abx, some 4⟩, ⟨.ldx, .aby, some 4⟩, ⟨.mia, .aby, none⟩]

/-- Row Cx of the view of 30_encoding.md R147. -/
def opRowC : List Entry := [
  ⟨.cpy, .imm, some 2⟩, ⟨.cmp, .izx, some 6⟩, ⟨.mia, .imm, none⟩, ⟨.mia, .izx, none⟩,
  ⟨.cpy, .zp, some 3⟩, ⟨.cmp, .zp, some 3⟩, ⟨.dec, .zp, some 5⟩, ⟨.mia, .zp, none⟩,
  ⟨.iny, .imp, some 2⟩, ⟨.cmp, .imm, some 2⟩, ⟨.dex, .imp, some 2⟩, ⟨.mia, .imm, none⟩,
  ⟨.cpy, .abs, some 4⟩, ⟨.cmp, .abs, some 4⟩, ⟨.dec, .abs, some 6⟩, ⟨.mia, .abs, none⟩]

/-- Row Dx of the view of 30_encoding.md R147. -/
def opRowD : List Entry := [
  ⟨.bne, .rel, some 2⟩, ⟨.cmp, .izy, some 5⟩, ⟨.mia, .imp, none⟩, ⟨.mia, .izy, none⟩,
  ⟨.mia, .zpx, none⟩, ⟨.cmp, .zpx, some 4⟩, ⟨.dec, .zpx, some 6⟩, ⟨.mia, .zpx, none⟩,
  ⟨.cld, .imp, some 2⟩, ⟨.cmp, .aby, some 4⟩, ⟨.mia, .imp, none⟩, ⟨.mia, .aby, none⟩,
  ⟨.mia, .abx, none⟩, ⟨.cmp, .abx, some 4⟩, ⟨.dec, .abx, some 7⟩, ⟨.mia, .abx, none⟩]

/-- Row Ex of the view of 30_encoding.md R147. -/
def opRowE : List Entry := [
  ⟨.cpx, .imm, some 2⟩, ⟨.sbc, .izx, some 6⟩, ⟨.mia, .imm, none⟩, ⟨.mia, .izx, none⟩,
  ⟨.cpx, .zp, some 3⟩, ⟨.sbc, .zp, some 3⟩, ⟨.inc, .zp, some 5⟩, ⟨.mia, .zp, none⟩,
  ⟨.inx, .imp, some 2⟩, ⟨.sbc, .imm, some 2⟩, ⟨.nop, .imp, some 2⟩, ⟨.mia, .imm, none⟩,
  ⟨.cpx, .abs, some 4⟩, ⟨.sbc, .abs, some 4⟩, ⟨.inc, .abs, some 6⟩, ⟨.mia, .abs, none⟩]

/-- Row Fx of the view of 30_encoding.md R147. -/
def opRowF : List Entry := [
  ⟨.beq, .rel, some 2⟩, ⟨.sbc, .izy, some 5⟩, ⟨.mia, .imp, none⟩, ⟨.mia, .izy, none⟩,
  ⟨.mia, .zpx, none⟩, ⟨.sbc, .zpx, some 4⟩, ⟨.inc, .zpx, some 6⟩, ⟨.mia, .zpx, none⟩,
  ⟨.sed, .imp, some 2⟩, ⟨.sbc, .aby, some 4⟩, ⟨.mia, .imp, none⟩, ⟨.mia, .aby, none⟩,
  ⟨.mia, .abx, none⟩, ⟨.sbc, .abx, some 4⟩, ⟨.inc, .abx, some 7⟩, ⟨.mia, .abx, none⟩]

/-- The 256 entries in opcode order: "fixed array of 256 entries" (10_state.md R28). -/
def opTable : List Entry :=
  opRow0 ++ opRow1 ++ opRow2 ++ opRow3 ++ opRow4 ++ opRow5 ++ opRow6 ++ opRow7 ++
  opRow8 ++ opRow9 ++ opRowA ++ opRowB ++ opRowC ++ opRowD ++ opRowE ++ opRowF

/-- `OPTABLE[op]` (40_cpu_step_and_addressing.md R160). The table has 256 rows, so the default is never used
(`opTable_length`). -/
def entry (op : Byte) : Entry := opTable.getD op.toNat ⟨.nop, .imp, some 2⟩

/-- Operand bytes of a mode: 0, 1 or 2 (30_encoding.md R140, R141). -/
def Mode.operandBytes : Mode → Nat
  | .imp | .acc => 0
  | .imm | .zp | .zpx | .zpy | .rel | .izx | .izy => 1
  | .abs | .abx | .aby | .ind => 2

/-- The operand form a mode makes of the bytes after the opcode; a byte the mode does not take is ignored
(30_encoding.md R140, R142). -/
def Mode.operand : Mode → Byte → Byte → Operand
  | .imp, _, _ => .imp
  | .acc, _, _ => .acc
  | .imm, d, _ => .imm d
  | .zp, d, _ => .zp d
  | .zpx, d, _ => .zpx d
  | .zpy, d, _ => .zpy d
  | .abs, lo, hi => .abs (wordOf hi lo)
  | .abx, lo, hi => .abx (wordOf hi lo)
  | .aby, lo, hi => .aby (wordOf hi lo)
  | .rel, d, _ => .rel d
  | .izx, d, _ => .izx d
  | .izy, d, _ => .izy d
  | .ind, lo, hi => .ind (wordOf hi lo)

/-- The instruction of a kind with an operand form; the implied kinds carry none, MIA keeps its opcode. -/
def Kind.instr (k : Kind) (op : Byte) (o : Operand) : Instr :=
  match k with
  | .lda => .lda o
  | .ldx => .ldx o
  | .ldy => .ldy o
  | .sta => .sta o
  | .stx => .stx o
  | .sty => .sty o
  | .tax => .tax
  | .tay => .tay
  | .txa => .txa
  | .tya => .tya
  | .tsx => .tsx
  | .txs => .txs
  | .adc => .adc o
  | .sbc => .sbc o
  | .and => .and o
  | .ora => .ora o
  | .eor => .eor o
  | .bit => .bit o
  | .cmp => .cmp o
  | .cpx => .cpx o
  | .cpy => .cpy o
  | .inc => .inc o
  | .dec => .dec o
  | .inx => .inx
  | .iny => .iny
  | .dex => .dex
  | .dey => .dey
  | .asl => .asl o
  | .lsr => .lsr o
  | .rol => .rol o
  | .ror => .ror o
  | .jmp => .jmp o
  | .jsr => .jsr o
  | .rts => .rts
  | .bpl => .bpl o
  | .bmi => .bmi o
  | .bvc => .bvc o
  | .bvs => .bvs o
  | .bcc => .bcc o
  | .bcs => .bcs o
  | .bne => .bne o
  | .beq => .beq o
  | .pha => .pha
  | .php => .php
  | .pla => .pla
  | .plp => .plp
  | .clc => .clc
  | .sec => .sec
  | .cli => .cli
  | .sei => .sei
  | .cld => .cld
  | .sed => .sed
  | .clv => .clv
  | .nop => .nop
  | .rti => .rti
  | .brk => .brk
  | .mia => .mia op o

/-- The kind of an instruction (30_encoding.md R144). -/
def Instr.kind : Instr → Kind
  | .lda _ => .lda
  | .ldx _ => .ldx
  | .ldy _ => .ldy
  | .sta _ => .sta
  | .stx _ => .stx
  | .sty _ => .sty
  | .tax => .tax
  | .tay => .tay
  | .txa => .txa
  | .tya => .tya
  | .tsx => .tsx
  | .txs => .txs
  | .adc _ => .adc
  | .sbc _ => .sbc
  | .and _ => .and
  | .ora _ => .ora
  | .eor _ => .eor
  | .bit _ => .bit
  | .cmp _ => .cmp
  | .cpx _ => .cpx
  | .cpy _ => .cpy
  | .inc _ => .inc
  | .dec _ => .dec
  | .inx => .inx
  | .iny => .iny
  | .dex => .dex
  | .dey => .dey
  | .asl _ => .asl
  | .lsr _ => .lsr
  | .rol _ => .rol
  | .ror _ => .ror
  | .jmp _ => .jmp
  | .jsr _ => .jsr
  | .rts => .rts
  | .bpl _ => .bpl
  | .bmi _ => .bmi
  | .bvc _ => .bvc
  | .bvs _ => .bvs
  | .bcc _ => .bcc
  | .bcs _ => .bcs
  | .bne _ => .bne
  | .beq _ => .beq
  | .pha => .pha
  | .php => .php
  | .pla => .pla
  | .plp => .plp
  | .clc => .clc
  | .sec => .sec
  | .cli => .cli
  | .sei => .sei
  | .cld => .cld
  | .sed => .sed
  | .clv => .clv
  | .nop => .nop
  | .rti => .rti
  | .brk => .brk
  | .mia _ _ => .mia

/-- The operand form of an instruction; IMP for the implied kinds. -/
def Instr.operand : Instr → Operand
  | .lda o => o
  | .ldx o => o
  | .ldy o => o
  | .sta o => o
  | .stx o => o
  | .sty o => o
  | .tax => .imp
  | .tay => .imp
  | .txa => .imp
  | .tya => .imp
  | .tsx => .imp
  | .txs => .imp
  | .adc o => o
  | .sbc o => o
  | .and o => o
  | .ora o => o
  | .eor o => o
  | .bit o => o
  | .cmp o => o
  | .cpx o => o
  | .cpy o => o
  | .inc o => o
  | .dec o => o
  | .inx => .imp
  | .iny => .imp
  | .dex => .imp
  | .dey => .imp
  | .asl o => o
  | .lsr o => o
  | .rol o => o
  | .ror o => o
  | .jmp o => o
  | .jsr o => o
  | .rts => .imp
  | .bpl o => o
  | .bmi o => o
  | .bvc o => o
  | .bvs o => o
  | .bcc o => o
  | .bcs o => o
  | .bne o => o
  | .beq o => o
  | .pha => .imp
  | .php => .imp
  | .pla => .imp
  | .plp => .imp
  | .clc => .imp
  | .sec => .imp
  | .cli => .imp
  | .sei => .imp
  | .cld => .imp
  | .sed => .imp
  | .clv => .imp
  | .nop => .imp
  | .rti => .imp
  | .brk => .imp
  | .mia _ o => o

/-! ## The decoder -/

/-- The decoder: one table lookup on the opcode byte, the rest taken from the operand bytes its mode names; total,
"every byte decodes to something" (30_encoding.md R143). A byte past the instruction's length is ignored. -/
def decode (op b1 b2 : Byte) : Instr :=
  (entry op).kind.instr op ((entry op).mode.operand b1 b2)

/-- The length of the instruction an opcode begins (30_encoding.md R140, R151). -/
def instrLength (op : Byte) : Nat := 1 + (entry op).mode.operandBytes

/-- Why a list of bytes decodes to no instruction. Every opcode has an entry, so the one reason is that the list ends
before the instruction does. -/
inductive DecodeError where
  | truncated
  deriving DecidableEq, Repr

/-- The answer of the decoder on a list of bytes: the instruction and the bytes after it, or the reason. -/
inductive Decoded where
  | ok (i : Instr) (rest : List Byte)
  | rejected (e : DecodeError)
  deriving DecidableEq, Repr

/-- The decoder on any list of bytes in ascending address order (30_encoding.md R140). -/
def decodeBytes : List Byte → Decoded
  | [] => .rejected .truncated
  | op :: rest =>
    if rest.length < (entry op).mode.operandBytes then .rejected .truncated
    else .ok (decode op (rest.getD 0 0) (rest.getD 1 0)) (rest.drop (entry op).mode.operandBytes)

/-- The bytes of an instruction given as one number with bit 0 the least significant bit of the first byte: the
first `nbits` bits are `w`'s, every bit above is 0, up to the longest instruction of three bytes. -/
def tableBytes (nbits w : Nat) : List Byte :=
  let n := w % 2 ^ nbits
  [BitVec.ofNat 8 n, BitVec.ofNat 8 (n / 2 ^ 8), BitVec.ofNat 8 (n / 2 ^ 16)]

/-- The instruction the decoder reads from a word numbered as spec/opcode_table.json numbers it. -/
def decodeTableWord (nbits w : Nat) : Option Instr :=
  match decodeBytes (tableBytes nbits w) with
  | .ok i _ => some i
  | .rejected _ => none

/-! ## The encoder -/

/-- The rows of 30_encoding.md R145: the modes of a documented instruction, each with its opcode. -/
def Kind.forms : Kind → List (Mode × Byte)
  | .lda => [(.imm, 0xA9), (.zp, 0xA5), (.zpx, 0xB5), (.abs, 0xAD), (.abx, 0xBD), (.aby, 0xB9), (.izx, 0xA1), (.izy, 0xB1)]
  | .ldx => [(.imm, 0xA2), (.zp, 0xA6), (.zpy, 0xB6), (.abs, 0xAE), (.aby, 0xBE)]
  | .ldy => [(.imm, 0xA0), (.zp, 0xA4), (.zpx, 0xB4), (.abs, 0xAC), (.abx, 0xBC)]
  | .sta => [(.zp, 0x85), (.zpx, 0x95), (.abs, 0x8D), (.abx, 0x9D), (.aby, 0x99), (.izx, 0x81), (.izy, 0x91)]
  | .stx => [(.zp, 0x86), (.zpy, 0x96), (.abs, 0x8E)]
  | .sty => [(.zp, 0x84), (.zpx, 0x94), (.abs, 0x8C)]
  | .tax => [(.imp, 0xAA)]
  | .tay => [(.imp, 0xA8)]
  | .txa => [(.imp, 0x8A)]
  | .tya => [(.imp, 0x98)]
  | .tsx => [(.imp, 0xBA)]
  | .txs => [(.imp, 0x9A)]
  | .adc => [(.imm, 0x69), (.zp, 0x65), (.zpx, 0x75), (.abs, 0x6D), (.abx, 0x7D), (.aby, 0x79), (.izx, 0x61), (.izy, 0x71)]
  | .sbc => [(.imm, 0xE9), (.zp, 0xE5), (.zpx, 0xF5), (.abs, 0xED), (.abx, 0xFD), (.aby, 0xF9), (.izx, 0xE1), (.izy, 0xF1)]
  | .and => [(.imm, 0x29), (.zp, 0x25), (.zpx, 0x35), (.abs, 0x2D), (.abx, 0x3D), (.aby, 0x39), (.izx, 0x21), (.izy, 0x31)]
  | .ora => [(.imm, 0x09), (.zp, 0x05), (.zpx, 0x15), (.abs, 0x0D), (.abx, 0x1D), (.aby, 0x19), (.izx, 0x01), (.izy, 0x11)]
  | .eor => [(.imm, 0x49), (.zp, 0x45), (.zpx, 0x55), (.abs, 0x4D), (.abx, 0x5D), (.aby, 0x59), (.izx, 0x41), (.izy, 0x51)]
  | .bit => [(.zp, 0x24), (.abs, 0x2C)]
  | .cmp => [(.imm, 0xC9), (.zp, 0xC5), (.zpx, 0xD5), (.abs, 0xCD), (.abx, 0xDD), (.aby, 0xD9), (.izx, 0xC1), (.izy, 0xD1)]
  | .cpx => [(.imm, 0xE0), (.zp, 0xE4), (.abs, 0xEC)]
  | .cpy => [(.imm, 0xC0), (.zp, 0xC4), (.abs, 0xCC)]
  | .inc => [(.zp, 0xE6), (.zpx, 0xF6), (.abs, 0xEE), (.abx, 0xFE)]
  | .dec => [(.zp, 0xC6), (.zpx, 0xD6), (.abs, 0xCE), (.abx, 0xDE)]
  | .inx => [(.imp, 0xE8)]
  | .iny => [(.imp, 0xC8)]
  | .dex => [(.imp, 0xCA)]
  | .dey => [(.imp, 0x88)]
  | .asl => [(.acc, 0x0A), (.zp, 0x06), (.zpx, 0x16), (.abs, 0x0E), (.abx, 0x1E)]
  | .lsr => [(.acc, 0x4A), (.zp, 0x46), (.zpx, 0x56), (.abs, 0x4E), (.abx, 0x5E)]
  | .rol => [(.acc, 0x2A), (.zp, 0x26), (.zpx, 0x36), (.abs, 0x2E), (.abx, 0x3E)]
  | .ror => [(.acc, 0x6A), (.zp, 0x66), (.zpx, 0x76), (.abs, 0x6E), (.abx, 0x7E)]
  | .jmp => [(.abs, 0x4C), (.ind, 0x6C)]
  | .jsr => [(.abs, 0x20)]
  | .rts => [(.imp, 0x60)]
  | .bpl => [(.rel, 0x10)]
  | .bmi => [(.rel, 0x30)]
  | .bvc => [(.rel, 0x50)]
  | .bvs => [(.rel, 0x70)]
  | .bcc => [(.rel, 0x90)]
  | .bcs => [(.rel, 0xB0)]
  | .bne => [(.rel, 0xD0)]
  | .beq => [(.rel, 0xF0)]
  | .pha => [(.imp, 0x48)]
  | .php => [(.imp, 0x08)]
  | .pla => [(.imp, 0x68)]
  | .plp => [(.imp, 0x28)]
  | .clc => [(.imp, 0x18)]
  | .sec => [(.imp, 0x38)]
  | .cli => [(.imp, 0x58)]
  | .sei => [(.imp, 0x78)]
  | .cld => [(.imp, 0xD8)]
  | .sed => [(.imp, 0xF8)]
  | .clv => [(.imp, 0xB8)]
  | .nop => [(.imp, 0xEA)]
  | .rti => [(.imp, 0x40)]
  | .brk => [(.imp, 0x00)]
  | .mia => []

/-- The placeholder opcodes by their default mode: the table of 30_encoding.md R150 (`MIA_MODE`). -/
def miaModes : List (Mode × List Byte) := [
  (.imp, [0x02, 0x12, 0x1A, 0x22, 0x32, 0x3A, 0x42, 0x52, 0x5A, 0x62, 0x72, 0x7A, 0x92, 0xB2, 0xD2, 0xDA, 0xF2, 0xFA]),
  (.imm, [0x0B, 0x2B, 0x4B, 0x6B, 0x80, 0x82, 0x89, 0x8B, 0xAB, 0xC2, 0xCB, 0xE2, 0xEB]),
  (.zp, [0x04, 0x07, 0x27, 0x44, 0x47, 0x64, 0x67, 0x87, 0xA7, 0xC7, 0xE7]),
  (.zpx, [0x14, 0x17, 0x34, 0x37, 0x54, 0x57, 0x74, 0x77, 0xD4, 0xD7, 0xF4, 0xF7]),
  (.zpy, [0x97, 0xB7]),
  (.abs, [0x0C, 0x0F, 0x2F, 0x4F, 0x6F, 0x8F, 0xAF, 0xCF, 0xEF]),
  (.abx, [0x1C, 0x1F, 0x3C, 0x3F, 0x5C, 0x5F, 0x7C, 0x7F, 0x9C, 0xDC, 0xDF, 0xFC, 0xFF]),
  (.aby, [0x1B, 0x3B, 0x5B, 0x7B, 0x9B, 0x9E, 0x9F, 0xBB, 0xBF, 0xDB, 0xFB]),
  (.izx, [0x03, 0x23, 0x43, 0x63, 0x83, 0xA3, 0xC3, 0xE3]),
  (.izy, [0x13, 0x33, 0x53, 0x73, 0x93, 0xB3, 0xD3, 0xF3])]

/-- `MIA_MODE(op)`: the mode of a placeholder opcode, none for a documented one (30_encoding.md R149, R150; log 7). -/
def miaMode (op : Byte) : Option Mode :=
  (miaModes.find? fun row => row.2.contains op).map Prod.fst

/-- The opcode of an instruction: that of its row in R145, or the placeholder's own; none where no opcode has that
kind with that operand form. -/
def Instr.opcode? (i : Instr) : Option Byte :=
  match i with
  | .mia op o => if miaMode op = some o.mode then some op else none
  | _ => i.kind.forms.lookup i.operand.mode

/-- The operand bytes of a form, the low byte of an address first (30_encoding.md R140, 20_memory.md R81). -/
def Operand.bytes : Operand → List Byte
  | .imp | .acc => []
  | .imm d | .zp d | .zpx d | .zpy d | .rel d | .izx d | .izy d => [d]
  | .abs a | .abx a | .aby a | .ind a => [loByte a, hiByte a]

/-- The bytes of an instruction in ascending address order; none of a term no opcode stands for. -/
def encode (i : Instr) : List Byte :=
  match i.opcode? with
  | some op => op :: i.operand.bytes
  | none => []

end Sys2Proof
end

