-- ==== Sys2Proof/Machine/Bits.lean ====
section
/-! DEFINITION. The bit notation of 00_scope.md R9 that the machine uses beside core BitVec operations. -/

namespace Sys2Proof.Machine

/-- `zext_16(b)` (00_scope.md R9). -/
def zext16 (b : Byte) : Word := b.setWidth 16

/-- `sext_16(b)` (00_scope.md R9). -/
def sext16 (b : Byte) : Word := b.signExtend 16

/-- `e[i]` of a byte as a flag. -/
def bitOf (b : Byte) (i : Nat) : Bool := b.getLsbD i

/-- A flag as the bit it adds in arithmetic, 0 or 1. -/
def flagNat (b : Bool) : Nat := if b then 1 else 0

/-- A byte with bit `i` replaced. -/
def setBit (b : Byte) (i : Nat) (val : Bool) : Byte :=
  if val then b ||| (1#8 <<< i) else b &&& ~~~(1#8 <<< i)

end Sys2Proof.Machine
end

