-- ==== Sys2Proof/Config.lean ====
section
/-! DEFINITION. What is fixed for one machine and is not state: the parameters of 00_scope.md R8 and
92_eei_decisions.md section 8, and the values the spec leaves open. -/

namespace Sys2Proof

/-- How a cartridge arranges the two name tables: "a 3-way enumeration" (20_memory.md R105). -/
inductive Mirroring where
  | fourScreen | vertical | horizontal
  deriving DecidableEq, Repr

/-- A master-palette entry, three bytes (10_state.md R49). -/
structure Rgb where
  r : Byte
  g : Byte
  b : Byte
  deriving DecidableEq, Repr, Inhabited

namespace Config

/-- `CPU_PACING` (92_eei_decisions.md D1; 60_exceptions.md R412, R417). -/
inductive CpuPacing where
  | perInstruction
  | perCycle
  deriving DecidableEq, Repr

/-- `RENDER_GATING` (92_eei_decisions.md D37; 47_ppu_dot_pipeline.md R353). -/
inductive RenderGating where
  | maskGated
  | unconditional
  deriving DecidableEq, Repr

/-- The parameters with named alternatives for which the spec gives rules (log 8). -/
structure Params where
  cpuPacing : CpuPacing
  cpuPhase : Fin 3
  renderGating : RenderGating
  deriving DecidableEq, Repr

/-- The spec's defaults of those parameters (00_scope.md R8). -/
def params : Params := { cpuPacing := .perInstruction, cpuPhase := 0, renderGating := .maskGated }

/-- `INT_CYCLES`, added by an NMI or IRQ entry (92_eei_decisions.md D15). -/
def intCycles : Nat := 7

/-- `PPU_WO_READ`, the byte a read of port 0, 1, 3, 4, 5 or 6 returns (92_eei_decisions.md D29). -/
def ppuWoRead : Byte := 0x00

/-- `NT_MIRROR_NO_CART` (92_eei_decisions.md D33). -/
def ntMirrorNoCart : Mirroring := .horizontal

/-- `MIA_CYCLES`, OPEN in the spec: a function from the placeholder opcodes to naturals (92_eei_decisions.md D5).
No body: nothing is known of its values (log 4). -/
opaque miaCycles : Byte → Nat

/-- `MASTER_PALETTE`, OPEN in the spec: 64 triples (92_eei_decisions.md D47; log 5). -/
opaque masterPalette : BitVec 6 → Rgb

/-- `NT_SELECT_FOURSCREEN`, OPEN in the spec: quadrant to table, false for `nt0` (92_eei_decisions.md D33; log 6).
It is not supplied, so insertion refuses a four-screen cartridge (70_reset_and_hazards.md R446). -/
opaque ntSelectFourScreen : BitVec 2 → Bool

end Config

end Sys2Proof
end

