-- ==== Sys2Proof/Machine/Memory.lean ====
section
/-! DEFINITION. A byte memory as plain data: the cells that differ from what an unlisted address reads as, by strictly
rising address. Every memory of the machine is one of these: RAM, the PRG and CHR banks, the name tables, the palette,
the internal pattern memory, and the frame buffer. -/

namespace Sys2Proof.Machine

/-- A memory: (address, byte) cells in one canonical form (`Memory.wf`), keyed by the index the spec gives the byte. -/
abbrev Memory := List Host.Cell

/-- What an unlisted address reads as. The spec leaves the power-on contents OPEN (92_eei_decisions.md D26); a state
lists every byte that differs from this one, so every power-on contents is a state (log 1). DESIGN CHOICE. -/
def unlisted : Byte := 0x00

/-- The byte at an address. -/
def byteAt (m : Memory) (a : Nat) : Byte := (List.lookup a m).getD unlisted

/-- A cell put before the first cell of a greater address. -/
def insertCell (c : Host.Cell) : Memory → Memory
  | [] => [c]
  | d :: m => if c.1 < d.1 then c :: d :: m else d :: insertCell c m

/-- A byte stored at an address; storing what an unlisted address reads as removes the cell. -/
def storeByte (m : Memory) (a : Nat) (b : Byte) : Memory :=
  let others := m.filter fun c => c.1 != a
  if b = unlisted then others else insertCell (a, b) others

/-- The canonical form: addresses strictly rising, no cell equal to what an unlisted address reads as. -/
def Memory.wf : Memory → Bool
  | [] => true
  | c :: m => c.2 != unlisted && m.all (fun d => c.1 < d.1) && Memory.wf m

/-- Every listed address is below the memory's size. -/
def memoryWithin (size : Nat) (m : Memory) : Bool := m.all fun c => c.1 < size

/-- The memory that holds a list of bytes from address `a` on, given in ascending address order. -/
def memoryOfBytes : Nat → List Byte → Memory
  | _, [] => []
  | a, b :: bs => if b = unlisted then memoryOfBytes (a + 1) bs else (a, b) :: memoryOfBytes (a + 1) bs

end Sys2Proof.Machine
end

