-- ==== Sys2Proof/Machine/State.lean ====
section
/-! DEFINITION. The state of the machine: the CPU, the PPU, the RAM, the cartridge slot and the orchestrator's
counters, as plain data; the reasons a step can stop; and the state right after reset. -/

namespace Sys2Proof.Machine

/-- The CPU register file (10_state.md R20 to R27). -/
structure Cpu where
  /-- Accumulator, R20. -/
  a : Byte
  /-- Index X, R20. -/
  x : Byte
  /-- Index Y, R20. -/
  y : Byte
  /-- Stack pointer, low byte of an address in 0x0100-0x01FF, R21. -/
  sp : Byte
  /-- Program counter, R22. -/
  pc : Word
  /-- Status register, from bit 0: C Z I D B U V N, R23. -/
  p : Byte
  /-- Cycle counter, unbounded, read by nothing, R26. -/
  cyc : Nat
  /-- Placeholder mark, sticky, R27. -/
  miaSeen : Bool
  deriving DecidableEq, Repr

/-- The Mapper's variants; only Mapper0 (NROM) exists (20_memory.md R110, R117). It owns the PRG and the CHR bank
lists (10_state.md R32). -/
inductive Mapper where
  | mapper0 (prg : List Memory) (chr : List Memory)
  deriving DecidableEq, Repr

/-- A cartridge image, what the core consumes of a cartridge file (00_scope.md R8). A bank is the memory of its
bytes: PRG banks of 16384, CHR banks of 8192. -/
structure CartImage where
  prg : List Memory
  chr : List Memory
  mirroring : Mirroring
  mapperId : Nat
  deriving DecidableEq, Repr

/-- An attached cartridge with the Mapper built from it (10_state.md R31, R32). -/
structure Cartridge where
  mirroring : Mirroring
  mapperId : Nat
  mapper : Mapper
  deriving DecidableEq, Repr

/-- The PPU: ports, internal registers, raster, pipeline and memories (10_state.md R33 to R50). -/
structure Ppu where
  /-- CTRL, R34. -/
  ctrl : Byte
  /-- MASK, R35. -/
  mask : Byte
  /-- STATUS, R36. -/
  status : Byte
  /-- OAMADDR, R37. -/
  oamAddr : Byte
  /-- OAMDATA, R37. -/
  oamData : Byte
  /-- The "ignore control writes" guard, constant 0, R38. -/
  ignoreCtrlWrites : Bool
  /-- Current VRAM address, R39. -/
  v : BitVec 15
  /-- Temporary VRAM address, R39. -/
  t : BitVec 15
  /-- Fine-X scroll, the spec's `x`, R40. -/
  fineX : BitVec 3
  /-- Write toggle, true when the next write is the second of a pair, R40. -/
  w : Bool
  /-- Read-ahead buffer of port 7, R41. -/
  rdbuf : Byte
  /-- Raster line 0 to 261 of the next dot, R42. -/
  scanline : Nat
  /-- Raster dot 0 to 340 of the next dot, R42. -/
  dot : Nat
  /-- Frame parity, R42. -/
  oddFrame : Bool
  /-- NMI latched and not yet delivered, R43. -/
  nmiPending : Bool
  /-- Background shifters, R44. -/
  shPatLo : BitVec 16
  shPatHi : BitVec 16
  shAttrLo : BitVec 16
  shAttrHi : BitVec 16
  /-- Fetch latches, R45. -/
  ntLatch : Byte
  atLatch : BitVec 2
  loLatch : Byte
  hiLatch : Byte
  /-- Name tables `NT[0]`, `NT[1]`, 1024 bytes each, R46. -/
  nt0 : Memory
  nt1 : Memory
  /-- Palette RAM, 32 bytes, R47. -/
  pal : Memory
  /-- Internal pattern memory, 8192 bytes, R48. -/
  ipat : Memory
  /-- Frame buffer, 0xF000 entries, each the 6-bit master-palette index of its colour, R50 with
  92_eei_decisions.md D47 "A model may store `idx` (6 bits) instead" (log 2). -/
  fb : Memory
  deriving DecidableEq, Repr

/-- The whole machine. -/
structure State where
  /-- The CPU register file. -/
  cpu : Cpu
  /-- The PPU. -/
  ppu : Ppu
  /-- Physical RAM, 2048 bytes, 10_state.md R30. -/
  ram : Memory
  /-- The cartridge slot, 10_state.md R31. -/
  cart : Option Cartridge
  /-- Ticks of the master loop, 10_state.md R51. -/
  tick : Nat
  /-- The countdown of the alternative pacing, 60_exceptions.md R417 (log 8). -/
  wait : Nat
  deriving DecidableEq, Repr

/-- The reasons a step can stop with a fault: none. "all steady-state bus/CPU/PPU operations are total functions that
never fail" (60_exceptions.md R406), so the type has no constructor, nothing raises a fault, and that is the spec's own
rule (safe). -/
inductive Fault where
  deriving DecidableEq, Repr

/-- The reasons an instruction term has no meaning. -/
inductive Refusal where
  /-- Raised by an arm of `exec` for an instruction without a meaning yet; no arm raises it. Safe: the machine stops. -/
  | notModelled (mnemonic : String)
  /-- Raised by a meaning on a term of `Instr` whose operand form no opcode has (`Instr.opcode?` is none). The decoder
  never makes such a term, so `step` never raises it. Safe: the machine stops. -/
  | illFormed
  deriving DecidableEq, Repr

/-- What a meaning answers. -/
abbrev Out := Host.Outcome State Fault Refusal

/-- The contents the spec leaves OPEN at power-on, the model's arguments RAM_INIT, NT_INIT, PAL_INIT, IPAT_INIT and
FB_INIT (70_reset_and_hazards.md R440). -/
structure PowerOn where
  ram : Memory
  nt0 : Memory
  nt1 : Memory
  pal : Memory
  ipat : Memory
  fb : Memory
  deriving DecidableEq, Repr

/-- The CPU registers after `CpuReset` with the word at the Reset vector (70_reset_and_hazards.md R441). -/
def Cpu.reset (vector : Word) : Cpu :=
  { a := 0x00, x := 0x00, y := 0x00, sp := 0xFD, pc := vector, p := 0x04, cyc := 7, miaSeen := false }

/-- The PPU after power-on (70_reset_and_hazards.md R440). -/
def Ppu.powerOn (init : PowerOn) : Ppu :=
  { ctrl := 0x00, mask := 0x00, status := 0x00, oamAddr := 0x00, oamData := 0x00, ignoreCtrlWrites := false,
    v := 0, t := 0, fineX := 0, w := false, rdbuf := 0x00,
    scanline := 0, dot := 0, oddFrame := false, nmiPending := false,
    shPatLo := 0, shPatHi := 0, shAttrLo := 0, shAttrHi := 0,
    ntLatch := 0x00, atLatch := 0, loLatch := 0x00, hiLatch := 0x00,
    nt0 := init.nt0, nt1 := init.nt1, pal := init.pal, ipat := init.ipat, fb := init.fb }

/-- Power-on followed by the orchestrator's `CpuReset` with no cartridge (70_reset_and_hazards.md R440): "a state
constructor that includes the reset" (R443). With no cartridge both vector bytes read 0x00 (R441). -/
def State.boot (init : PowerOn) : State :=
  { cpu := Cpu.reset 0x0000, ppu := Ppu.powerOn init, ram := init.ram, cart := none, tick := 0, wait := 0 }

/-- The machine right after reset: `boot` with every open memory listing nothing (log 1, log 2, log 3). -/
def State.reset : State := State.boot { ram := [], nt0 := [], nt1 := [], pal := [], ipat := [], fb := [] }

end Sys2Proof.Machine
end

