-- ==== Sys2Proof/Machine/Mapper.lean ====
section
/-! DEFINITION. The Mapper's four calls: "A miss (`hit=false`) means "this mapper variant does not claim this address""
(20_memory.md R110). A read answers the byte on a hit; a write answers the Mapper afterwards on a hit; `none` is a miss.
One match arm per variant. -/

namespace Sys2Proof.Machine

/-- Byte `i` of bank `k` of a bank list. A bank that is not there reads as an unlisted byte: insertion refuses an
image with no PRG bank (70_reset_and_hazards.md R446), so no PRG bank asked for is ever missing (log 16). -/
def bankByte (banks : List Memory) (k i : Nat) : Byte := byteAt (banks.getD k []) i

/-- The PRG bank of the upper window: the last one, "if more than one exists, else mirroring" (20_memory.md R112). -/
def upperBank (prg : List Memory) : Nat := if prg.length > 1 then prg.length - 1 else 0

/-- `cpuReadMap` (20_memory.md R111 to R113). -/
def cpuReadMap (m : Mapper) (a : Word) : Option Byte :=
  match m with
  | .mapper0 prg _ =>
    if 0xC000 ≤ a.toNat then some (bankByte prg (upperBank prg) (a &&& 0x3FFF).toNat)
    else if 0x8000 ≤ a.toNat then some (bankByte prg 0 (a &&& 0x3FFF).toNat)
    else if 0x6000 ≤ a.toNat then some 0x00
    else none

/-- `cpuWriteMap`: claimed from 0x6000 on, and nothing is stored (20_memory.md R114). -/
def cpuWriteMap (m : Mapper) (a : Word) (_d : Byte) : Option Mapper :=
  match m with
  | .mapper0 prg chr => if 0x6000 ≤ a.toNat then some (.mapper0 prg chr) else none

/-- `ppuReadMap`: CHR bank 0, a miss with zero CHR banks (20_memory.md R115). -/
def ppuReadMap (m : Mapper) (a : Word) : Option Byte :=
  match m with
  | .mapper0 _ (bank :: _) => if a.toNat ≤ 0x1FFF then some (byteAt bank a.toNat) else none
  | .mapper0 _ [] => none

/-- `ppuWriteMap`: stores into CHR bank 0, a miss with zero CHR banks (20_memory.md R116). -/
def ppuWriteMap (m : Mapper) (a : Word) (d : Byte) : Option Mapper :=
  match m with
  | .mapper0 prg (bank :: others) =>
    if a.toNat ≤ 0x1FFF then some (.mapper0 prg (storeByte bank a.toNat d :: others)) else none
  | .mapper0 _ [] => none

end Sys2Proof.Machine
end

