-- ==== Sys2Proof/Machine/PpuBus.lean ====
section
/-! DEFINITION. The PPU address space: `PpuRead` and `PpuWrite` (20_memory.md R100 to R106). -/

namespace Sys2Proof.Machine

/-- The mirroring mode in force: the cartridge's, or NT_MIRROR_NO_CART (20_memory.md R104). -/
def mirroringOf (cart : Option Cartridge) : Mirroring :=
  match cart with
  | some c => c.mirroring
  | none => Config.ntMirrorNoCart

/-- `q = (a & 0x0FFF) >> 10`, the logical quadrant of a name-table address (20_memory.md R104). -/
def quadrant (a : Word) : BitVec 2 := a.extractLsb' 10 2

/-- `NtSelect(a)`: false for `NT[0]`, true for `NT[1]` (20_memory.md R104). -/
def ntSelect (mode : Mirroring) (a : Word) : Bool :=
  match mode with
  | .vertical => (quadrant a).getLsbD 0
  | .horizontal => (quadrant a).getLsbD 1
  | .fourScreen => Config.ntSelectFourScreen (quadrant a)

/-- `PalIndex(a)`: every 32 bytes, and 0x10, 0x14, 0x18, 0x1C alias 0x00, 0x04, 0x08, 0x0C (20_memory.md R106). -/
def palIndex (a : Word) : Nat :=
  let i := (a &&& 0x1F).toNat
  if i = 0x10 ∨ i = 0x14 ∨ i = 0x18 ∨ i = 0x1C then i - 0x10 else i

/-- The name table an address selects. -/
def ntOf (u : Ppu) (second : Bool) : Memory := if second then u.nt1 else u.nt0

/-- The internal tables, asked when no Mapper claims the address `a` (already below 0x4000; 20_memory.md R100). -/
def ppuInternalRead (cart : Option Cartridge) (u : Ppu) (a : Word) : Byte :=
  if a.toNat ≤ 0x1FFF then byteAt u.ipat a.toNat
  else if a.toNat ≤ 0x3EFF then byteAt (ntOf u (ntSelect (mirroringOf cart) a)) (a &&& 0x03FF).toNat
  else byteAt u.pal (palIndex a)

/-- `PpuRead(a)`: the address modulo 0x4000 first, then the Mapper, then the internal tables (20_memory.md R100, R102). -/
def ppuRead (cart : Option Cartridge) (u : Ppu) (addr : Word) : Byte :=
  let a := addr &&& 0x3FFF
  match cart.bind fun c => ppuReadMap c.mapper a with
  | some b => b
  | none => ppuInternalRead cart u a

/-- The internal tables' side of a write (20_memory.md R101). -/
def ppuInternalWrite (cart : Option Cartridge) (u : Ppu) (a : Word) (d : Byte) : Ppu :=
  if a.toNat ≤ 0x1FFF then { u with ipat := storeByte u.ipat a.toNat d }
  else if a.toNat ≤ 0x3EFF then
    if ntSelect (mirroringOf cart) a then { u with nt1 := storeByte u.nt1 (a &&& 0x03FF).toNat d }
    else { u with nt0 := storeByte u.nt0 (a &&& 0x03FF).toNat d }
  else { u with pal := storeByte u.pal (palIndex a) d }

/-- `PpuWrite(a, d)` (20_memory.md R101): the cartridge and the PPU afterwards. -/
def ppuWrite (cart : Option Cartridge) (u : Ppu) (addr : Word) (d : Byte) : Option Cartridge × Ppu :=
  let a := addr &&& 0x3FFF
  match cart with
  | none => (none, ppuInternalWrite none u a d)
  | some c =>
    match ppuWriteMap c.mapper a d with
    | some m => (some { c with mapper := m }, u)
    | none => (some c, ppuInternalWrite (some c) u a d)

end Sys2Proof.Machine
end

