-- ==== Sys2Proof/Machine/Ports.lean ====
section
/-! DEFINITION. The eight PPU ports as seen from the CPU (46_ppu_register_ports.md). -/

namespace Sys2Proof.Machine

/-- The ports in index order 0 to 7 (10_state.md R33). -/
inductive Port where
  | ctrl | mask | status | oamAddr | oamData | scroll | addr | data
  deriving DecidableEq, Repr

/-- The port of index `i mod 8`. -/
def portOfIndex (i : Nat) : Port :=
  match i % 8 with
  | 0 => .ctrl
  | 1 => .mask
  | 2 => .status
  | 3 => .oamAddr
  | 4 => .oamData
  | 5 => .scroll
  | 6 => .addr
  | _ => .data

/-- The port a CPU address of 0x2000-0x3FFF names: `(a - 0x2000) mod 8` (20_memory.md R87). -/
def portOf (a : Word) : Port := portOfIndex (a.toNat - 0x2000)

/-- The PPU address port 7 accesses, `v & 0x3FFF` (46_ppu_register_ports.md R325, R328). -/
def vramAddr (u : Ppu) : Word := u.v.setWidth 16 &&& 0x3FFF

/-- `VramInc()` (46_ppu_register_ports.md R330). -/
def vramInc (u : Ppu) : BitVec 15 := if bitOf u.ctrl 2 then 32 else 1

/-- The PPU with `v` advanced after an access of port 7 (46_ppu_register_ports.md R330). -/
def advanceV (u : Ppu) : Ppu := { u with v := u.v + vramInc u }

/-- Read of STATUS: clears verticalBlank and the toggle (46_ppu_register_ports.md R320). -/
def readStatus (u : Ppu) : Byte × Ppu :=
  (u.status, { u with status := u.status &&& 0x7F, w := false })

/-- Read of DATA: buffered below the palette, immediate in it (46_ppu_register_ports.md R325). -/
def readData (cart : Option Cartridge) (u : Ppu) : Byte × Ppu :=
  let a := vramAddr u
  if a.toNat < 0x3F00 then (u.rdbuf, advanceV { u with rdbuf := ppuRead cart u a })
  else (ppuRead cart u a, advanceV { u with rdbuf := ppuRead cart u (a - 0x1000) })

/-- `PpuPortRead(i)` (46_ppu_register_ports.md R310, R312, R315 to R317, R320, R325, R327). -/
def portRead (cart : Option Cartridge) (u : Ppu) (port : Port) : Byte × Ppu :=
  match port with
  | .status => readStatus u
  | .data => readData cart u
  | .ctrl | .mask | .oamAddr | .oamData | .scroll | .addr => (Config.ppuWoRead, u)

/-- Write to CTRL: the byte, and its two name-table bits into `t` (46_ppu_register_ports.md R311). -/
def writeCtrl (u : Ppu) (d : Byte) : Ppu :=
  { u with ctrl := d, t := (u.t &&& 0x73FF) ||| ((d &&& 0x03).setWidth 15 <<< 10) }

/-- Write to SCROLL, first or second by `w` (46_ppu_register_ports.md R323). -/
def writeScroll (u : Ppu) (d : Byte) : Ppu :=
  if u.w then
    { u with
      t := (u.t &&& 0x0C1F) ||| ((d &&& 0x07).setWidth 15 <<< 12) ||| ((d >>> 3).setWidth 15 <<< 5)
      w := false }
  else
    { u with fineX := (d &&& 0x07).setWidth 3, t := (u.t &&& 0x7FE0) ||| (d >>> 3).setWidth 15, w := true }

/-- Write to ADDR, high byte first, first or second by `w` (46_ppu_register_ports.md R324). -/
def writeAddr (u : Ppu) (d : Byte) : Ppu :=
  if u.w then
    let t := (u.t &&& 0x7F00) ||| d.setWidth 15
    { u with t := t, v := t, w := false }
  else
    { u with t := (u.t &&& 0x00FF) ||| ((d &&& 0x3F).setWidth 15 <<< 8), w := true }

/-- Write to DATA (46_ppu_register_ports.md R328). -/
def writeData (cart : Option Cartridge) (u : Ppu) (d : Byte) : Option Cartridge × Ppu :=
  let r := ppuWrite cart u (vramAddr u) d
  (r.1, advanceV r.2)

/-- `PpuPortWrite(i, d)` (46_ppu_register_ports.md R310): the cartridge and the PPU afterwards. No write is ever
ignored: the guard is constant false (R331). -/
def portWrite (cart : Option Cartridge) (u : Ppu) (port : Port) (d : Byte) : Option Cartridge × Ppu :=
  match port with
  | .ctrl => (cart, writeCtrl u d)
  | .mask => (cart, { u with mask := d })
  | .status => (cart, u)
  | .oamAddr => (cart, { u with oamAddr := d })
  | .oamData => (cart, { u with oamData := d })
  | .scroll => (cart, writeScroll u d)
  | .addr => (cart, writeAddr u d)
  | .data => writeData cart u d

end Sys2Proof.Machine
end

