-- ==== Sys2Proof/Machine/Ops.lean ====
section
/-! DEFINITION. The operations over memory and registers that instructions share: bus accesses, fetch, stack, the
interrupt entry and the return from it, reset. -/

namespace Sys2Proof.Machine

/-! ## Register updates -/

/-- `A <- v`. -/
def State.setA (s : State) (v : Byte) : State := { s with cpu := { s.cpu with a := v } }

/-- `X <- v`. -/
def State.setX (s : State) (v : Byte) : State := { s with cpu := { s.cpu with x := v } }

/-- `Y <- v`. -/
def State.setY (s : State) (v : Byte) : State := { s with cpu := { s.cpu with y := v } }

/-- `SP <- v`. -/
def State.setSp (s : State) (v : Byte) : State := { s with cpu := { s.cpu with sp := v } }

/-- `PC <- v`. -/
def State.setPc (s : State) (v : Word) : State := { s with cpu := { s.cpu with pc := v } }

/-- `P <- v`. -/
def State.setP (s : State) (v : Byte) : State := { s with cpu := { s.cpu with p := v } }

/-- `CYC <- CYC + n`. -/
def State.addCyc (s : State) (n : Nat) : State := { s with cpu := { s.cpu with cyc := s.cpu.cyc + n } }

/-- `miaSeen <- 1` (45_stack_flags_system.md R297). -/
def State.markMia (s : State) : State := { s with cpu := { s.cpu with miaSeen := true } }

/-! ## The CPU address space -/

/-- `MemRead(a, 1)`: the cartridge first, then RAM, then the ports, else 0x00 (20_memory.md R84). -/
def memRead (a : Word) (s : State) : Byte × State :=
  match s.cart.bind fun c => cpuReadMap c.mapper a with
  | some b => (b, s)
  | none =>
    if a.toNat ≤ 0x1FFF then (byteAt s.ram (a &&& 0x07FF).toNat, s)
    else if a.toNat ≤ 0x3FFF then
      let r := portRead s.cart s.ppu (portOf a)
      (r.1, { s with ppu := r.2 })
    else (0x00, s)

/-- The translations after the cartridge in `MemWrite`: RAM, then the ports, else discarded (20_memory.md R85). -/
def memWriteInternal (a : Word) (d : Byte) (s : State) : State :=
  if a.toNat ≤ 0x1FFF then { s with ram := storeByte s.ram (a &&& 0x07FF).toNat d }
  else if a.toNat ≤ 0x3FFF then
    let r := portWrite s.cart s.ppu (portOf a) d
    { s with cart := r.1, ppu := r.2 }
  else s

/-- `MemWrite(a, 1, d)` (20_memory.md R85). -/
def memWrite (a : Word) (d : Byte) (s : State) : State :=
  match s.cart with
  | none => memWriteInternal a d s
  | some c =>
    match cpuWriteMap c.mapper a d with
    | some m => { s with cart := some { c with mapper := m } }
    | none => memWriteInternal a d s

/-- `Fetch()` (40_cpu_step_and_addressing.md R161). -/
def fetch (s : State) : Byte × State :=
  let r := memRead s.cpu.pc s
  (r.1, r.2.setPc (s.cpu.pc + 1))

/-! ## The stack -/

/-- The CPU address of a stack byte, `0x0100 | SP` (10_state.md R21). -/
def stackAddr (sp : Byte) : Word := 0x0100 ||| zext16 sp

/-- `Push(v)` (40_cpu_step_and_addressing.md R180). -/
def push (v : Byte) (s : State) : State :=
  (memWrite (stackAddr s.cpu.sp) v s).setSp (s.cpu.sp - 1)

/-- `Pop()` (40_cpu_step_and_addressing.md R181). -/
def pop (s : State) : Byte × State :=
  let s := s.setSp (s.cpu.sp + 1)
  memRead (stackAddr s.cpu.sp) s

/-- The status byte as it is pushed: Break and Reserved forced to 1 (10_state.md R25). -/
def pushedP (p : Byte) : Byte := p ||| 0x30

/-- The status register as it is loaded from the stack: Break and Reserved cleared (10_state.md R25). -/
def pulledP (b : Byte) : Byte := b &&& 0xCF

/-! ## Interrupt entry and return -/

/-- The NMI vector (60_exceptions.md R400). -/
def nmiVector : Word := 0xFFFA

/-- The Reset vector (60_exceptions.md R400). -/
def resetVector : Word := 0xFFFC

/-- The IRQ and BRK vector (60_exceptions.md R400). -/
def irqVector : Word := 0xFFFE

/-- The word at a vector, low byte read first (60_exceptions.md R401). -/
def readVector (vec : Word) (s : State) : Word × State :=
  let lo := memRead vec s
  let hi := memRead (vec + 1) lo.2
  (wordOf hi.1 lo.1, hi.2)

/-- `Interrupt(vec)`, the entry common to NMI, IRQ and BRK: PC high, PC low and the status with Break and Reserved
forced are pushed, `P.I <- 1`, `PC` from the vector (60_exceptions.md R401). -/
def interrupt (vec : Word) (s : State) : State :=
  let s := push (hiByte s.cpu.pc) s
  let s := push (loByte s.cpu.pc) s
  let s := push (pushedP s.cpu.p) s
  let s := s.setP (setBit s.cpu.p 2 true)
  let r := readVector vec s
  r.2.setPc r.1

/-- `CpuNmi()` (60_exceptions.md R402). -/
def cpuNmi (s : State) : State := (interrupt nmiVector s).addCyc Config.intCycles

/-- `CpuIrq()`: masked by `P.I`, and a masked request is not remembered (60_exceptions.md R403). -/
def cpuIrq (s : State) : State :=
  if bitOf s.cpu.p 2 then s else (interrupt irqVector s).addCyc Config.intCycles

/-- The return from an interrupt: status, then PC low, then PC high (45_stack_flags_system.md R294, 60_exceptions.md
R414). -/
def returnFromInterrupt (s : State) : State :=
  let p := pop s
  let lo := pop (p.2.setP (pulledP p.1))
  let hi := pop lo.2
  hi.2.setPc (wordOf hi.1 lo.1)

/-- `CpuReset()` (70_reset_and_hazards.md R441). -/
def cpuReset (s : State) : State :=
  let r := readVector resetVector s
  { r.2 with cpu := Cpu.reset r.1 }

end Sys2Proof.Machine
end

