-- ==== Sys2Proof/Machine/Cartridge.lean ====
section
/-! DEFINITION. Insertion and removal of a cartridge, applied between two ticks (70_reset_and_hazards.md R446), and the
interpretation of a cartridge file's header (R447). -/

namespace Sys2Proof.Machine

/-- What `InsertCartridge` returns: Ok with the machine afterwards, or Unsupported with the machine unchanged
(70_reset_and_hazards.md R446). -/
inductive InsertResult where
  | ok (s : State)
  | unsupported
  deriving DecidableEq, Repr

/-- `RemoveCartridge()`: the slot is empty, the Mapper with its banks is gone, and nothing else changes
(70_reset_and_hazards.md R446). -/
def removeCartridge (s : State) : State := { s with cart := none }

/-- The cartridge built from an image, with a fresh Mapper0 (70_reset_and_hazards.md R446). -/
def buildCartridge (img : CartImage) : Cartridge :=
  { mirroring := img.mirroring, mapperId := img.mapperId, mapper := .mapper0 img.prg img.chr }

/-- The images the core can run: mapper 0, at least one PRG bank, no four-screen mirroring, NT_SELECT_FOURSCREEN not
being supplied (70_reset_and_hazards.md R446; log 6). -/
def supported (img : CartImage) : Bool :=
  img.mapperId == 0 && img.prg.length != 0 && img.mirroring != .fourScreen

/-- `InsertCartridge(image)`: one indivisible transition ending in the CPU reset (70_reset_and_hazards.md R446). -/
def insertCartridge (img : CartImage) (s : State) : InsertResult :=
  if supported img then .ok (cpuReset { removeCartridge s with cart := some (buildCartridge img) })
  else .unsupported

/-! ## The file header -/

/-- `MAPPER_ID = (flags7 & 0xF0) | (flags6 >> 4)` (70_reset_and_hazards.md R447). -/
def headerMapperId (flags6 flags7 : Byte) : Nat := ((flags7 &&& 0xF0) ||| (flags6 >>> 4)).toNat

/-- FourScreen when flags6 bit 3 is set, else Vertical when bit 0 is set, else Horizontal (70_reset_and_hazards.md
R447). -/
def headerMirroring (flags6 : Byte) : Mirroring :=
  if bitOf flags6 3 then .fourScreen else if bitOf flags6 0 then .vertical else .horizontal

/-- Bytes skipped before the PRG banks: 512 when flags6 bit 2 says a trainer is present (70_reset_and_hazards.md R447). -/
def trainerBytes (flags6 : Byte) : Nat := if bitOf flags6 2 then 512 else 0

/-- The first `n` banks of `size` bytes of a byte list. -/
def banksOf (size : Nat) : Nat → List Byte → List Memory
  | 0, _ => []
  | n + 1, bytes => memoryOfBytes 0 (bytes.take size) :: banksOf size n (bytes.drop size)

/-- The image of a cartridge file: a 16-byte header, an optional trainer, the PRG banks, the CHR banks; none when the
file is shorter than its header says (70_reset_and_hazards.md R447; log 13). -/
def imageOfFile (file : List Byte) : Option CartImage :=
  let flags6 := file.getD 6 0
  let prgCount := (file.getD 4 0).toNat
  let chrCount := (file.getD 5 0).toNat
  let start := 16 + trainerBytes flags6
  if file.length < start + 16384 * prgCount + 8192 * chrCount then none
  else some
    { prg := banksOf 16384 prgCount (file.drop start)
      chr := banksOf 8192 chrCount (file.drop (start + 16384 * prgCount))
      mirroring := headerMirroring flags6
      mapperId := headerMapperId flags6 (file.getD 7 0) }

end Sys2Proof.Machine
end

