-- ==== Sys2Proof/Machine/Flags.lean ====
section
/-! DEFINITION. The status flags and every flag computation the spec gives. -/

namespace Sys2Proof.Machine

/-! ## The flags of `P` (10_state.md R23) -/

/-- `P.C`, bit 0. -/
def State.flagC (s : State) : Bool := bitOf s.cpu.p 0

/-- `P.Z`, bit 1. -/
def State.flagZ (s : State) : Bool := bitOf s.cpu.p 1

/-- `P.I`, bit 2. -/
def State.flagI (s : State) : Bool := bitOf s.cpu.p 2

/-- `P.D`, bit 3. -/
def State.flagD (s : State) : Bool := bitOf s.cpu.p 3

/-- `P.B`, bit 4. -/
def State.flagB (s : State) : Bool := bitOf s.cpu.p 4

/-- `P.U`, bit 5. -/
def State.flagU (s : State) : Bool := bitOf s.cpu.p 5

/-- `P.V`, bit 6. -/
def State.flagV (s : State) : Bool := bitOf s.cpu.p 6

/-- `P.N`, bit 7. -/
def State.flagN (s : State) : Bool := bitOf s.cpu.p 7

/-- `P.C <- b`. -/
def State.setC (s : State) (b : Bool) : State := s.setP (setBit s.cpu.p 0 b)

/-- `P.Z <- b`. -/
def State.setZ (s : State) (b : Bool) : State := s.setP (setBit s.cpu.p 1 b)

/-- `P.I <- b`. -/
def State.setI (s : State) (b : Bool) : State := s.setP (setBit s.cpu.p 2 b)

/-- `P.D <- b`. -/
def State.setD (s : State) (b : Bool) : State := s.setP (setBit s.cpu.p 3 b)

/-- `P.V <- b`. -/
def State.setV (s : State) (b : Bool) : State := s.setP (setBit s.cpu.p 6 b)

/-- `P.N <- b`. -/
def State.setN (s : State) (b : Bool) : State := s.setP (setBit s.cpu.p 7 b)

/-! ## Computations -/

/-- `SetZN(v)` (40_cpu_step_and_addressing.md R182). -/
def setZN (v : Byte) (s : State) : State := (s.setZ (v == 0)).setN (bitOf v 7)

/-- The unbounded sum `A + m + P.C` (42_arithmetic_logic.md R220). -/
def adcSum (a m : Byte) (c : Bool) : Nat := a.toNat + m.toNat + flagNat c

/-- The result byte of the adder, `sum[7:0]` (42_arithmetic_logic.md R220). -/
def adcResult (a m : Byte) (c : Bool) : Byte := BitVec.ofNat 8 (adcSum a m c)

/-- The carry out of the adder, unsigned overflow (42_arithmetic_logic.md R220). -/
def adcCarry (a m : Byte) (c : Bool) : Bool := decide (adcSum a m c > 0xFF)

/-- The signed overflow of the adder, `((A ^ r) & (m ^ r) & 0x80) != 0` (42_arithmetic_logic.md R220). -/
def adcOverflow (a m : Byte) (c : Bool) : Bool :=
  let r := adcResult a m c
  ((a ^^^ r) &&& (m ^^^ r) &&& 0x80) != 0

/-- `AddWithCarry(m)`, the one adder of the machine; binary whatever `P.D` is (42_arithmetic_logic.md R220). -/
def addWithCarry (m : Byte) (s : State) : State :=
  let a := s.cpu.a
  let c := s.flagC
  setZN (adcResult a m c) (((s.setC (adcCarry a m c)).setV (adcOverflow a m c)).setA (adcResult a m c))

/-- `Compare(r, m)` (42_arithmetic_logic.md R227). -/
def compareBytes (r m : Byte) (s : State) : State := setZN (r - m) (s.setC (decide (m.toNat ≤ r.toNat)))

/-- The flags BIT writes: Z from `A & m`, N and V from the operand's bits 7 and 6 (42_arithmetic_logic.md R226). -/
def bitTest (m : Byte) (s : State) : State :=
  ((s.setZ ((s.cpu.a &&& m) == 0)).setN (bitOf m 7)).setV (bitOf m 6)

end Sys2Proof.Machine
end

