-- ==== Sys2Proof/Machine/Operands.lean ====
section
/-! DEFINITION. The thirteen addressing modes and the shared bodies of the instructions that have an operand. In every
function here `PC` already names the following instruction: the operand bytes have been fetched and stand in the
operand form (40_cpu_step_and_addressing.md R160). -/

namespace Sys2Proof.Machine

/-- `PageCross(base, ea)` (40_cpu_step_and_addressing.md R168). -/
def pageCross (base ea : Word) : Bool := hiByte ea != hiByte base

/-- An indexed address with the extra cycle of a page cross, whatever the instruction (40_cpu_step_and_addressing.md
R168, R170, R171, R174). -/
def indexed (base : Word) (index : Byte) (s : State) : Word × State :=
  let ea := base + zext16 index
  (ea, if pageCross base ea then s.addCyc 1 else s)

/-- A 16-bit pointer of page zero: low byte at `p`, high byte at `p + 1` wrapped within page zero
(40_cpu_step_and_addressing.md R173, R174). -/
def zeroPagePointer (p : Byte) (s : State) : Word × State :=
  let lo := memRead (zext16 p) s
  let hi := memRead (zext16 (p + 1)) lo.2
  (wordOf hi.1 lo.1, hi.2)

/-- The pointer of mode IND, whose high byte comes from the same page (40_cpu_step_and_addressing.md R175). -/
def indirectPointer (a : Word) (s : State) : Word × State :=
  let l := memRead a s
  let h := memRead (wordOf (hiByte a) (loByte a + 1)) l.2
  (wordOf h.1 l.1, h.2)

/-- `Mode[mode]()`: the effective address, `none` for the sentinel, and the state after the mode's bus reads and extra
cycle (40_cpu_step_and_addressing.md R162 to R175). For IMM the operand byte is the one before `PC` (R164). -/
def effAddr (o : Operand) (s : State) : Option Word × State :=
  match o with
  | .imp | .acc => (none, s)
  | .imm _ => (some (s.cpu.pc - 1), s)
  | .zp d => (some (zext16 d), s)
  | .zpx d => (some (zext16 (d + s.cpu.x)), s)
  | .zpy d => (some (zext16 (d + s.cpu.y)), s)
  | .abs a => (some a, s)
  | .abx a => let r := indexed a s.cpu.x s; (some r.1, r.2)
  | .aby a => let r := indexed a s.cpu.y s; (some r.1, r.2)
  | .rel d => (some (s.cpu.pc + sext16 d), s)
  | .izx d => let r := zeroPagePointer (d + s.cpu.x) s; (some r.1, r.2)
  | .izy d =>
    let p := zeroPagePointer d s
    let r := indexed p.1 s.cpu.y p.2
    (some r.1, r.2)
  | .ind a => let r := indirectPointer a s; (some r.1, r.2)

/-- `M`, the operand of a reading instruction. With IMM it is the operand byte, "the byte `d8` itself is the data
operand" (30_encoding.md R142), whose one read was the fetch of that byte (log 10); with ACC it is `A`
(40_cpu_step_and_addressing.md R163); else it is read once from the effective address (R186). -/
def readOperand (o : Operand) (s : State) : Byte × State :=
  match o with
  | .imm d => (d, s)
  | o =>
    let r := effAddr o s
    match r.1 with
    | some ea => memRead ea r.2
    | none => (r.2.cpu.a, r.2)

/-- `MemWrite(ea, 1, v)` at the effective address; with ACC the result goes to `A` (43_shift_rotate.md R250). -/
def writeOperand (o : Operand) (v : State → Byte) (s : State) : State :=
  let r := effAddr o s
  match r.1 with
  | some ea => memWrite ea (v r.2) r.2
  | none => r.2.setA (v r.2)

/-- A read-modify-write: one read and one write of the same operand, in memory or in `A`, the flags `flags m` of the
old byte and Z and N of the new one (42_arithmetic_logic.md R231; 43_shift_rotate.md R250). -/
def modifyOperand (o : Operand) (f : Byte → Byte) (flags : Byte → State → State) (s : State) : State :=
  let r := effAddr o s
  match r.1 with
  | some ea =>
    let m := memRead ea r.2
    setZN (f m.1) (memWrite ea (f m.1) (flags m.1 m.2))
  | none =>
    let m := r.2.cpu.a
    setZN (f m) ((flags m r.2).setA (f m))

/-- `Branch(cond, ea)` (44_control_flow.md R263). -/
def branch (cond : State → Bool) (o : Operand) (s : State) : State :=
  let r := effAddr o s
  match r.1 with
  | some ea =>
    if cond r.2 then
      let s := r.2.addCyc 1
      (if hiByte ea != hiByte s.cpu.pc then s.addCyc 1 else s).setPc ea
    else r.2
  | none => r.2

/-- `PC <- ea` of the instructions that jump to their effective address (44_control_flow.md R260). -/
def jumpTo (o : Operand) (s : State) : State :=
  let r := effAddr o s
  match r.1 with
  | some ea => r.2.setPc ea
  | none => r.2

/-! ## The frame of an instruction -/

/-- The base cycle count of an instruction: that of the table entry of its opcode, MIA_CYCLES for a placeholder
(30_encoding.md R144, R150); none for a term that no opcode stands for. -/
def baseCycles (i : Instr) : Option Nat :=
  i.opcode?.map fun op => (entry op).cycles.getD (Config.miaCycles op)

/-- The common part of every instruction: its base count is added, then its body runs (40_cpu_step_and_addressing.md
R160). A term that no opcode stands for is no instruction and is refused (log 9). -/
def withCycles (i : Instr) (body : State → State) (s : State) : Out :=
  match baseCycles i with
  | some n => .next (body (s.addCyc n))
  | none => .refused .illFormed

end Sys2Proof.Machine
end

