-- ==== Sys2Proof/Machine/Arith.lean ====
section
/-! DEFINITION. Arithmetic, logic, compare, increment and decrement (42_arithmetic_logic.md). -/

namespace Sys2Proof.Machine

/-- ADC (42_arithmetic_logic.md R221). -/
def execAdc (o : Operand) (s : State) : Out :=
  withCycles (.adc o) (fun s => let m := readOperand o s; addWithCarry m.1 m.2) s

/-- SBC, the adder with the operand complemented (R222). -/
def execSbc (o : Operand) (s : State) : Out :=
  withCycles (.sbc o) (fun s => let m := readOperand o s; addWithCarry (m.1 ^^^ 0xFF) m.2) s

/-- The accumulator replaced by a function of itself and the operand, Z and N from the result (R223 to R225). -/
def logicA (f : Byte → Byte → Byte) (o : Operand) (s : State) : State :=
  let m := readOperand o s
  let r := f m.2.cpu.a m.1
  setZN r (m.2.setA r)

/-- AND (R223). -/
def execAnd (o : Operand) (s : State) : Out := withCycles (.and o) (logicA (· &&& ·) o) s

/-- ORA (R224). -/
def execOra (o : Operand) (s : State) : Out := withCycles (.ora o) (logicA (· ||| ·) o) s

/-- EOR (R225). -/
def execEor (o : Operand) (s : State) : Out := withCycles (.eor o) (logicA (· ^^^ ·) o) s

/-- BIT (R226). -/
def execBit (o : Operand) (s : State) : Out :=
  withCycles (.bit o) (fun s => let m := readOperand o s; bitTest m.1 m.2) s

/-- CMP (R228). -/
def execCmp (o : Operand) (s : State) : Out :=
  withCycles (.cmp o) (fun s => let m := readOperand o s; compareBytes m.2.cpu.a m.1 m.2) s

/-- CPX (R229). -/
def execCpx (o : Operand) (s : State) : Out :=
  withCycles (.cpx o) (fun s => let m := readOperand o s; compareBytes m.2.cpu.x m.1 m.2) s

/-- CPY (R230). -/
def execCpy (o : Operand) (s : State) : Out :=
  withCycles (.cpy o) (fun s => let m := readOperand o s; compareBytes m.2.cpu.y m.1 m.2) s

/-- INC (R231). -/
def execInc (o : Operand) (s : State) : Out :=
  withCycles (.inc o) (modifyOperand o (· + 1) fun _ s => s) s

/-- DEC (R232). -/
def execDec (o : Operand) (s : State) : Out :=
  withCycles (.dec o) (modifyOperand o (· - 1) fun _ s => s) s

/-- INX (R233). -/
def execInx (s : State) : Out := withCycles .inx (fun s => setZN (s.cpu.x + 1) (s.setX (s.cpu.x + 1))) s

/-- INY (R234). -/
def execIny (s : State) : Out := withCycles .iny (fun s => setZN (s.cpu.y + 1) (s.setY (s.cpu.y + 1))) s

/-- DEX (R235). -/
def execDex (s : State) : Out := withCycles .dex (fun s => setZN (s.cpu.x - 1) (s.setX (s.cpu.x - 1))) s

/-- DEY (R236). -/
def execDey (s : State) : Out := withCycles .dey (fun s => setZN (s.cpu.y - 1) (s.setY (s.cpu.y - 1))) s

end Sys2Proof.Machine
end

