-- ==== Sys2Proof/Machine/Control.lean ====
section
/-! DEFINITION. Jumps, subroutine call and return, conditional branches (44_control_flow.md). -/

namespace Sys2Proof.Machine

/-- JMP (44_control_flow.md R260). -/
def execJmp (o : Operand) (s : State) : Out := withCycles (.jmp o) (jumpTo o) s

/-- The body of JSR: the address of the JSR's own last byte is pushed, high byte first, then the jump. The target was
encoded in the operand before either push (R261). -/
def callSubroutine (o : Operand) (s : State) : State :=
  let r := effAddr o s
  let ret := r.2.cpu.pc - 1
  let s := push (loByte ret) (push (hiByte ret) r.2)
  match r.1 with
  | some ea => s.setPc ea
  | none => s

/-- JSR (R261). -/
def execJsr (o : Operand) (s : State) : Out := withCycles (.jsr o) (callSubroutine o) s

/-- The body of RTS (R262). -/
def returnFromSubroutine (s : State) : State :=
  let lo := pop s
  let hi := pop lo.2
  hi.2.setPc (wordOf hi.1 lo.1 + 1)

/-- RTS (R262). -/
def execRts (s : State) : Out := withCycles .rts returnFromSubroutine s

/-- BPL (R264). -/
def execBpl (o : Operand) (s : State) : Out := withCycles (.bpl o) (branch (fun s => !s.flagN) o) s

/-- BMI (R265). -/
def execBmi (o : Operand) (s : State) : Out := withCycles (.bmi o) (branch (fun s => s.flagN) o) s

/-- BVC (R266). -/
def execBvc (o : Operand) (s : State) : Out := withCycles (.bvc o) (branch (fun s => !s.flagV) o) s

/-- BVS (R267). -/
def execBvs (o : Operand) (s : State) : Out := withCycles (.bvs o) (branch (fun s => s.flagV) o) s

/-- BCC (R268). -/
def execBcc (o : Operand) (s : State) : Out := withCycles (.bcc o) (branch (fun s => !s.flagC) o) s

/-- BCS (R269). -/
def execBcs (o : Operand) (s : State) : Out := withCycles (.bcs o) (branch (fun s => s.flagC) o) s

/-- BNE (R270). -/
def execBne (o : Operand) (s : State) : Out := withCycles (.bne o) (branch (fun s => !s.flagZ) o) s

/-- BEQ (R271). -/
def execBeq (o : Operand) (s : State) : Out := withCycles (.beq o) (branch (fun s => s.flagZ) o) s

end Sys2Proof.Machine
end

