-- ==== Sys2Proof/Machine/LoadStore.lean ====
section
/-! DEFINITION. Loads, stores and register transfers (41_load_store_transfer.md). -/

namespace Sys2Proof.Machine

/-- LDA (41_load_store_transfer.md R200). -/
def execLda (o : Operand) (s : State) : Out :=
  withCycles (.lda o) (fun s => let m := readOperand o s; setZN m.1 (m.2.setA m.1)) s

/-- LDX (R201). -/
def execLdx (o : Operand) (s : State) : Out :=
  withCycles (.ldx o) (fun s => let m := readOperand o s; setZN m.1 (m.2.setX m.1)) s

/-- LDY (R202). -/
def execLdy (o : Operand) (s : State) : Out :=
  withCycles (.ldy o) (fun s => let m := readOperand o s; setZN m.1 (m.2.setY m.1)) s

/-- STA (R203). -/
def execSta (o : Operand) (s : State) : Out := withCycles (.sta o) (writeOperand o fun s => s.cpu.a) s

/-- STX (R204). -/
def execStx (o : Operand) (s : State) : Out := withCycles (.stx o) (writeOperand o fun s => s.cpu.x) s

/-- STY (R205). -/
def execSty (o : Operand) (s : State) : Out := withCycles (.sty o) (writeOperand o fun s => s.cpu.y) s

/-- TAX (R206). -/
def execTax (s : State) : Out := withCycles .tax (fun s => setZN s.cpu.a (s.setX s.cpu.a)) s

/-- TAY (R207). -/
def execTay (s : State) : Out := withCycles .tay (fun s => setZN s.cpu.a (s.setY s.cpu.a)) s

/-- TXA (R208). -/
def execTxa (s : State) : Out := withCycles .txa (fun s => setZN s.cpu.x (s.setA s.cpu.x)) s

/-- TYA (R209). -/
def execTya (s : State) : Out := withCycles .tya (fun s => setZN s.cpu.y (s.setA s.cpu.y)) s

/-- TSX (R210). -/
def execTsx (s : State) : Out := withCycles .tsx (fun s => setZN s.cpu.sp (s.setX s.cpu.sp)) s

/-- TXS, the one transfer that writes no flag (R211). -/
def execTxs (s : State) : Out := withCycles .txs (fun s => s.setSp s.cpu.x) s

end Sys2Proof.Machine
end

