-- ==== Sys2Proof/Machine/Shift.lean ====
section
/-! DEFINITION. Shifts and rotates, on the accumulator or on memory (43_shift_rotate.md). -/

namespace Sys2Proof.Machine

/-- `m << 1` with a bit entering at the right (43_shift_rotate.md R251, R253). -/
def shiftLeftIn (c : Bool) (m : Byte) : Byte := (m <<< 1) ||| BitVec.ofNat 8 (flagNat c)

/-- `m >> 1` with a bit entering at the left (43_shift_rotate.md R252, R254). -/
def shiftRightIn (c : Bool) (m : Byte) : Byte := (m >>> 1) ||| (BitVec.ofNat 8 (flagNat c) <<< 7)

/-- ASL: a 0 enters, bit 7 leaves into C (R251). -/
def execAsl (o : Operand) (s : State) : Out :=
  withCycles (.asl o) (modifyOperand o (shiftLeftIn false) fun m s => s.setC (bitOf m 7)) s

/-- LSR: a 0 enters, bit 0 leaves into C (R252). -/
def execLsr (o : Operand) (s : State) : Out :=
  withCycles (.lsr o) (modifyOperand o (shiftRightIn false) fun m s => s.setC (bitOf m 0)) s

/-- ROL: the old C enters, bit 7 leaves into C (R253). -/
def execRol (o : Operand) (s : State) : Out :=
  withCycles (.rol o) (fun s => modifyOperand o (shiftLeftIn s.flagC) (fun m s => s.setC (bitOf m 7)) s) s

/-- ROR: the old C enters, bit 0 leaves into C (R254). -/
def execRor (o : Operand) (s : State) : Out :=
  withCycles (.ror o) (fun s => modifyOperand o (shiftRightIn s.flagC) (fun m s => s.setC (bitOf m 0)) s) s

end Sys2Proof.Machine
end

