-- ==== Sys2Proof/Machine/System.lean ====
section
/-! DEFINITION. Stack, flag and system instructions, and the placeholder MIA (45_stack_flags_system.md). -/

namespace Sys2Proof.Machine

/-- PHA (45_stack_flags_system.md R280). -/
def execPha (s : State) : Out := withCycles .pha (fun s => push s.cpu.a s) s

/-- PHP (R281). -/
def execPhp (s : State) : Out := withCycles .php (fun s => push (pushedP s.cpu.p) s) s

/-- PLA (R282). -/
def execPla (s : State) : Out := withCycles .pla (fun s => let m := pop s; setZN m.1 (m.2.setA m.1)) s

/-- PLP (R283). -/
def execPlp (s : State) : Out := withCycles .plp (fun s => let m := pop s; m.2.setP (pulledP m.1)) s

/-- CLC (R284). -/
def execClc (s : State) : Out := withCycles .clc (fun s => s.setC false) s

/-- SEC (R285). -/
def execSec (s : State) : Out := withCycles .sec (fun s => s.setC true) s

/-- CLI (R286). -/
def execCli (s : State) : Out := withCycles .cli (fun s => s.setI false) s

/-- SEI (R287). -/
def execSei (s : State) : Out := withCycles .sei (fun s => s.setI true) s

/-- CLD (R288). -/
def execCld (s : State) : Out := withCycles .cld (fun s => s.setD false) s

/-- SED (R289). -/
def execSed (s : State) : Out := withCycles .sed (fun s => s.setD true) s

/-- CLV (R290). -/
def execClv (s : State) : Out := withCycles .clv (fun s => s.setV false) s

/-- NOP (R292). -/
def execNop (s : State) : Out := withCycles .nop (fun s => s) s

/-- RTI (R294). -/
def execRti (s : State) : Out := withCycles .rti returnFromInterrupt s

/-- BRK: the padding byte is skipped, not read, and the interrupt entry is taken (R295, 60_exceptions.md R404). -/
def execBrk (s : State) : Out :=
  withCycles .brk (fun s => interrupt irqVector (s.setPc (s.cpu.pc + 1))) s

/-- MIA: the addressing mode's side effects, no operation, and the mark (R297). -/
def execMia (op : Byte) (o : Operand) (s : State) : Out :=
  withCycles (.mia op o) (fun s => (effAddr o s).2.markMia) s

end Sys2Proof.Machine
end

