-- ==== Sys2Proof/Machine/Pipeline.lean ====
section
/-! DEFINITION. `PpuStep`, one dot of the raster: flag events, pixel output, background fetch pipeline, scroll updates
(47_ppu_dot_pipeline.md). It reads the cartridge and changes the PPU alone: "`PpuStep` makes no CPU-space access and
reads no CPU register" (R350). -/

namespace Sys2Proof.Machine

/-! ## Gates and classes of scanline -/

/-- `RenderLine(sl)`: the visible lines 0 to 239 and the pre-render line 261 (47_ppu_dot_pipeline.md R352). -/
def renderLine (sl : Nat) : Bool := decide (sl ≤ 239) || sl == 261

/-- `Rendering()`: showBackground or showSprites, or always under the alternative gating (R353). -/
def rendering (g : Config.RenderGating) (u : Ppu) : Bool :=
  match g with
  | .maskGated => bitOf u.mask 3 || bitOf u.mask 4
  | .unconditional => true

/-- Whether pixels come from the shifters: `MASK[3]`, taken as 1 under the alternative gating (R353, R370). -/
def showBackground (g : Config.RenderGating) (u : Ppu) : Bool :=
  match g with
  | .maskGated => bitOf u.mask 3
  | .unconditional => true

/-! ## Flag events -/

/-- `ClearFlags()` (R354). -/
def clearFlags (u : Ppu) : Ppu := { u with status := u.status &&& 0x1F, oddFrame := !u.oddFrame }

/-- `SetVblank()`, the only place `nmiPending` is set (R355). -/
def setVblank (u : Ppu) : Ppu :=
  { u with status := u.status ||| 0x80, nmiPending := if bitOf u.ctrl 7 then true else u.nmiPending }

/-- Part (1) of `PpuStep`, not gated by rendering (R350). -/
def flagEvents (u : Ppu) : Ppu :=
  if u.scanline = 261 ∧ u.dot = 1 then clearFlags u
  else if u.scanline = 241 ∧ u.dot = 1 then setVblank u
  else u

/-! ## Pixel output -/

/-- The bit of a shifter fine X selects, bit `15 - x` (R370). -/
def shifterBit (sh : BitVec 16) (fineX : BitVec 3) : Bool := sh.getLsbD (15 - fineX.toNat)

/-- The working-palette index of a pixel: 0 when the pattern value is 0, else `4 * pa + px` (R370, R371). -/
def paletteIndex (px pa : Nat) : Nat := if px = 0 then 0 else 4 * pa + px

/-- The working-palette index of the pixel in the shifters (R370). -/
def pixelIndex (g : Config.RenderGating) (u : Ppu) : Nat :=
  if showBackground g u then
    paletteIndex (flagNat (shifterBit u.shPatLo u.fineX) + 2 * flagNat (shifterBit u.shPatHi u.fineX))
      (flagNat (shifterBit u.shAttrLo u.fineX) + 2 * flagNat (shifterBit u.shAttrHi u.fineX))
  else 0

/-- The master-palette index of a pixel, `PAL[idx] & 0x3F` (R370, R371). -/
def pixelColour (g : Config.RenderGating) (u : Ppu) : Byte := byteAt u.pal (pixelIndex g u) &&& 0x3F

/-- `EmitPixel(sl, d)`, the frame-buffer entry `(d - 1) + sl * 256` (R370). -/
def emitPixel (g : Config.RenderGating) (u : Ppu) : Ppu :=
  { u with fb := storeByte u.fb (u.dot - 1 + u.scanline * 256) (pixelColour g u) }

/-- Part (2) of `PpuStep` (R350). -/
def pixelOutput (g : Config.RenderGating) (u : Ppu) : Ppu :=
  if u.scanline ≤ 239 ∧ 1 ≤ u.dot ∧ u.dot ≤ 256 then emitPixel g u else u

/-! ## Fetch pipeline -/

/-- `ShiftAll()` (R358). -/
def shiftAll (u : Ppu) : Ppu :=
  { u with shPatLo := u.shPatLo <<< 1, shPatHi := u.shPatHi <<< 1,
           shAttrLo := u.shAttrLo <<< 1, shAttrHi := u.shAttrHi <<< 1 }

/-- `v` as a 16-bit PPU address under construction. -/
def v16 (u : Ppu) : Word := u.v.setWidth 16

/-- The address of the tile index (R361). -/
def tileAddr (u : Ppu) : Word := 0x2000 ||| (v16 u &&& 0x0FFF)

/-- The address of the attribute byte (R362). -/
def attrAddr (u : Ppu) : Word :=
  0x23C0 ||| (v16 u &&& 0x0C00) ||| ((v16 u >>> 4) &&& 0x38) ||| ((v16 u >>> 2) &&& 0x07)

/-- The address of the low pattern byte; the high one is 8 further (R363, R364). -/
def patternAddr (u : Ppu) : Word :=
  (if bitOf u.ctrl 4 then 0x1000 else 0x0000) ||| (u.ntLatch.setWidth 16 <<< 4) ||| ((v16 u >>> 12) &&& 0x07)

/-- Name-table fetch, phase 0 and dots 337 and 339 (R361, R369). -/
def fetchTile (cart : Option Cartridge) (u : Ppu) : Ppu := { u with ntLatch := ppuRead cart u (tileAddr u) }

/-- The two bits of an attribute byte for the tile at `v` (R362). -/
def attrSelect (v : BitVec 15) (at0 : Byte) : BitVec 2 :=
  let at1 := if v &&& 0x0040 ≠ 0 then at0 >>> 4 else at0
  let at2 := if v &&& 0x0002 ≠ 0 then at1 >>> 2 else at1
  (at2 &&& 0x03).setWidth 2

/-- Attribute fetch, phase 2 (R362). -/
def fetchAttr (cart : Option Cartridge) (u : Ppu) : Ppu :=
  { u with atLatch := attrSelect u.v (ppuRead cart u (attrAddr u)) }

/-- Low pattern fetch, phase 4 (R363). -/
def fetchLow (cart : Option Cartridge) (u : Ppu) : Ppu := { u with loLatch := ppuRead cart u (patternAddr u) }

/-- High pattern fetch, phase 6 (R364). -/
def fetchHigh (cart : Option Cartridge) (u : Ppu) : Ppu := { u with hiLatch := ppuRead cart u (patternAddr u + 8) }

/-- `IncX()` (R365). -/
def incX (v : BitVec 15) : BitVec 15 :=
  if v &&& 0x001F = 31 then (v &&& 0x7FE0) ^^^ 0x0400 else v + 1

/-- A byte put into bits 7:0 of a shifter (R365). -/
def loadLow (sh : BitVec 16) (b : Byte) : BitVec 16 := (sh &&& 0xFF00) ||| b.setWidth 16

/-- Reload of the shifters and coarse-X increment, phase 7 (R365). -/
def reload (u : Ppu) : Ppu :=
  { u with shPatLo := loadLow u.shPatLo u.loLatch
           shPatHi := loadLow u.shPatHi u.hiLatch
           shAttrLo := loadLow u.shAttrLo (if u.atLatch.getLsbD 0 then 0xFF else 0x00)
           shAttrHi := loadLow u.shAttrHi (if u.atLatch.getLsbD 1 then 0xFF else 0x00)
           v := incX u.v }

/-- `FetchPhase(p)` (R359). -/
def fetchPhase (cart : Option Cartridge) (phase : Nat) (u : Ppu) : Ppu :=
  match phase with
  | 0 => fetchTile cart u
  | 2 => fetchAttr cart u
  | 4 => fetchLow cart u
  | 6 => fetchHigh cart u
  | 7 => reload u
  | _ => u

/-! ## Scroll updates -/

/-- Coarse Y of a scroll position, bits 9:5 (10_state.md R39). -/
def coarseY (v : BitVec 15) : BitVec 15 := (v >>> 5) &&& 0x1F

/-- A scroll position with coarse Y replaced. -/
def withCoarseY (v : BitVec 15) (cy : BitVec 15) : BitVec 15 := (v &&& 0x7C1F) ||| (cy <<< 5)

/-- `IncY()`: fine Y, carrying into coarse Y, which wraps at 29 with a flip of nametableY and at 31 without (R366). -/
def incY (v : BitVec 15) : BitVec 15 :=
  if v &&& 0x7000 ≠ 0x7000 then v + 0x1000
  else
    let v := v &&& 0x0FFF
    let cy := coarseY v
    if cy = 29 then withCoarseY (v ^^^ 0x0800) 0
    else if cy = 31 then withCoarseY v 0
    else withCoarseY v (cy + 1)

/-- `CopyX()`: coarse X and nametableX of `t` (R367). -/
def copyX (v t : BitVec 15) : BitVec 15 := (v &&& 0x7BE0) ||| (t &&& 0x041F)

/-- `CopyY()`: fine Y, coarse Y and nametableY of `t` (R368). -/
def copyY (v t : BitVec 15) : BitVec 15 := (v &&& 0x041F) ||| (t &&& 0x7BE0)

/-- The dots that shift and run a fetch phase (R350). -/
def fetchDot (d : Nat) : Bool := (decide (1 ≤ d) && decide (d ≤ 256)) || (decide (321 ≤ d) && decide (d ≤ 336))

/-- Shift and fetch phase of a dot (R350). -/
def fetchWork (cart : Option Cartridge) (u : Ppu) : Ppu :=
  if fetchDot u.dot then fetchPhase cart ((u.dot - 1) % 8) (shiftAll u) else u

/-- The scroll updates of a dot, from the top of R350's list to the bottom: at most one of them falls on a dot. -/
def scrollWork (u : Ppu) : Ppu :=
  if u.dot = 256 then { u with v := incY u.v }
  else if u.dot = 257 then { u with v := copyX u.v u.t }
  else if u.scanline = 261 ∧ 280 ≤ u.dot ∧ u.dot ≤ 304 then { u with v := copyY u.v u.t }
  else u

/-- The redundant name-table fetches (R369). -/
def redundantFetch (cart : Option Cartridge) (u : Ppu) : Ppu :=
  if u.dot = 337 ∨ u.dot = 339 then fetchTile cart u else u

/-- Part (3) of `PpuStep` (R350). -/
def pipelineWork (g : Config.RenderGating) (cart : Option Cartridge) (u : Ppu) : Ppu :=
  if renderLine u.scanline && rendering g u then redundantFetch cart (scrollWork (fetchWork cart u)) else u

/-! ## The step -/

/-- `Advance()` (R351). -/
def advance (u : Ppu) : Ppu :=
  if u.dot + 1 > 340 then
    { u with dot := 0, scanline := if u.scanline + 1 > 261 then 0 else u.scanline + 1 }
  else { u with dot := u.dot + 1 }

/-- `PpuStep()`: its four parts in order (R350). -/
def ppuStep (g : Config.RenderGating) (cart : Option Cartridge) (u : Ppu) : Ppu :=
  advance (pipelineWork g cart (pixelOutput g (flagEvents u)))

end Sys2Proof.Machine
end

