-- ==== Sys2Proof/Machine/Orchestrator.lean ====
section
/-! DEFINITION. The CPU step, the NMI poll and the master tick (40_cpu_step_and_addressing.md R160;
60_exceptions.md R410, R412, R417), and the transitions the orchestrator may apply between two ticks. -/

namespace Sys2Proof.Machine

/-! ## The CPU step -/

/-- The instruction at `PC`: the opcode byte and then the operand bytes its entry's mode names are fetched through the
Bus in ascending order, and `PC` names the following instruction (40_cpu_step_and_addressing.md R160, R161). The
operand byte of IMM is fetched here too (log 10). -/
def fetchInstr (s : State) : Instr × State :=
  let op := fetch s
  match (entry op.1).mode.operandBytes with
  | 0 => (decode op.1 0 0, op.2)
  | 1 =>
    let b1 := fetch op.2
    (decode op.1 b1.1 0, b1.2)
  | _ =>
    let b1 := fetch op.2
    let b2 := fetch b1.2
    (decode op.1 b1.1 b2.1, b2.2)

/-- `CpuStep()`: exactly one instruction (40_cpu_step_and_addressing.md R160). -/
def cpuStep (s : State) : Out :=
  let i := fetchInstr s
  exec i.1 i.2

/-! ## The tick -/

/-- A function of the next state applied to an outcome. -/
def mapNext (f : State → State) : Out → Out
  | .next s => .next (f s)
  | .fault r => .fault r
  | .refused r => .refused r

/-- `PpuStep()` on the machine. -/
def stepPpu (p : Config.Params) (s : State) : State := { s with ppu := ppuStep p.renderGating s.cart s.ppu }

/-- The countdown after an NMI entry: under the per-cycle pacing the entry adds INT_CYCLES to it (60_exceptions.md
R417). -/
def waitForNmi (p : Config.Params) (s : State) : State :=
  match p.cpuPacing with
  | .perInstruction => s
  | .perCycle => { s with wait := s.wait + Config.intCycles }

/-- `PollNmi()` (60_exceptions.md R410). -/
def pollNmi (p : Config.Params) (s : State) : State :=
  if s.ppu.nmiPending then
    waitForNmi p (cpuNmi { s with ppu := { s.ppu with nmiPending := false } })
  else s

/-- The CPU's part of a tick it has: one whole instruction, or under the per-cycle pacing an instruction only when the
countdown is 0 (60_exceptions.md R412, R417). An instruction that adds no cycle leaves the countdown at 0 (log 8). -/
def cpuSlot (p : Config.Params) (s : State) : Out :=
  match p.cpuPacing with
  | .perInstruction => cpuStep s
  | .perCycle =>
    if s.wait = 0 then mapNext (fun t => { t with wait := t.cpu.cyc - s.cpu.cyc - 1 }) (cpuStep s)
    else .next { s with wait := s.wait - 1 }

/-- `tick <- tick + 1`. -/
def countTick (s : State) : State := { s with tick := s.tick + 1 }

/-- Whether the CPU has a part in the tick: `tick mod 3 = CPU_PHASE` (60_exceptions.md R412). -/
def cpuTick (p : Config.Params) (n : Nat) : Bool := n % 3 == p.cpuPhase.val

/-- `Tick()`: `PpuStep`, the NMI poll, on every third tick the CPU, then the count (60_exceptions.md R412). -/
def masterTick (p : Config.Params) (s : State) : Out :=
  let s := pollNmi p (stepPpu p s)
  if cpuTick p s.tick then mapNext countTick (cpuSlot p s) else .next (countTick s)

/-! ## Transitions between ticks -/

/-- What may happen to the machine: a tick, and between two ticks a reset, an insertion, a removal, or an IRQ request,
which no unit in scope makes (60_exceptions.md R403, R412; 70_reset_and_hazards.md R446; log 12). -/
inductive Event where
  | tick
  | reset
  | insert (img : CartImage)
  | remove
  | irq
  deriving DecidableEq, Repr

/-- The machine after an event. A refused insertion leaves it unchanged (70_reset_and_hazards.md R446). DESIGN CHOICE: an
IRQ entry adds nothing to `wait` under the per-cycle pacing, where 60_exceptions.md R417 names the NMI entry alone (log 19). -/
def applyEvent (p : Config.Params) (e : Event) (s : State) : Out :=
  match e with
  | .tick => masterTick p s
  | .reset => .next (cpuReset s)
  | .insert img =>
    match insertCartridge img s with
    | .ok t => .next t
    | .unsupported => .next s
  | .remove => .next (removeCartridge s)
  | .irq => .next (cpuIrq s)

/-! ## Placing an instruction -/

/-- The first tick number from `n` on in which the CPU has a part. -/
def nextCpuTick (p : Config.Params) (n : Nat) : Nat := n + (p.cpuPhase.val + 2 * n) % 3

/-- Whether a byte can be placed at a CPU address: RAM, or PRG with a cartridge attached. -/
def placeable (s : State) (a : Word) : Bool :=
  decide (a.toNat ≤ 0x1FFF) || (decide (0x8000 ≤ a.toNat) && s.cart.isSome)

/-- A PRG bank list with one byte of one bank replaced. -/
def setBankByte (banks : List Memory) (k i : Nat) (d : Byte) : List Memory :=
  banks.set k (storeByte (banks.getD k []) i d)

/-- A byte placed from outside the machine: into RAM, or into the PRG byte that answers at the address. -/
def placeByte (a : Word) (d : Byte) (s : State) : State :=
  if a.toNat ≤ 0x1FFF then { s with ram := storeByte s.ram (a &&& 0x07FF).toNat d }
  else
    match s.cart with
    | none => s
    | some c =>
      match c.mapper with
      | .mapper0 prg chr =>
        let k := if 0xC000 ≤ a.toNat then upperBank prg else 0
        { s with cart := some { c with mapper := .mapper0 (setBankByte prg k (a &&& 0x3FFF).toNat d) chr } }

/-- Bytes placed at ascending addresses. -/
def placeBytes (a : Word) : List Byte → State → State
  | [], s => s
  | d :: ds, s => placeBytes (a + 1) ds (placeByte a d s)

/-- Bytes placed where the CPU fetches next, with the tick moved on to one that has a CPU step: at `PC` as it is after
that tick's PPU step and NMI poll. Where no byte can be placed there, `PC` becomes 0x0000, in RAM (log 11). -/
def placeAtFetch (p : Config.Params) (bytes : List Byte) (s : State) : State :=
  let s := { s with tick := nextCpuTick p s.tick }
  let pc := (pollNmi p (stepPpu p s)).cpu.pc
  if placeable s pc && placeable s (pc + 1) && placeable s (pc + 2) then placeBytes pc bytes s
  else placeBytes 0x0000 bytes (s.setPc 0x0000)

end Sys2Proof.Machine
end

