-- ==== Sys2Proof/Machine/Step.lean ====
section
/-! DEFINITION. The step of the machine: "The model's top-level transition is `Tick`" (60_exceptions.md R412). -/

namespace Sys2Proof.Machine

/-- One tick of the master loop under the spec's default parameters (60_exceptions.md R412). -/
def step (s : State) : Host.Outcome State Fault Refusal := masterTick Config.params s

/-- `s` with an instruction, numbered as spec/opcode_table.json numbers its bits, placed where the very next step
fetches and runs it (log 11). -/
def State.withFetchWord (s : State) (nbits w : Nat) : State := placeAtFetch Config.params (tableBytes nbits w) s

end Sys2Proof.Machine
end

