-- ==== Sys2Proof/Machine/Snapshots.lean ====
section
/-! DEFINITION. The read-only views of the machine: pure functions of the state, no bus access and no side effect
(60_exceptions.md R428). -/

namespace Sys2Proof.Machine

/-- A debug read of the CPU space: the byte a bus read would return, without its side effect (R428). -/
def peek (a : Word) (s : State) : Byte := (memRead a s).1

/-- The view of RAM (R428). -/
def ramView (s : State) (i : Nat) : Byte := byteAt s.ram i

/-- A debug read of the PPU space (R428). -/
def ppuPeek (a : Word) (s : State) : Byte := ppuRead s.cart s.ppu a

/-- The frame-buffer entry `i` as the triple its master-palette index selects (47_ppu_dot_pipeline.md R370). -/
def frameView (s : State) (i : Nat) : Rgb := Config.masterPalette ((byteAt s.ppu.fb i).setWidth 6)

/-- The view of the master palette (R428). -/
def masterPaletteView (i : BitVec 6) : Rgb := Config.masterPalette i

/-- Entry `j` of the working sub-palette `k`: `PAL[PalIndex(4k + j)]` (R428). -/
def subPalette (s : State) (k j : Nat) : Byte := byteAt s.ppu.pal (palIndex (BitVec.ofNat 16 (4 * k + j)))

/-- The 2-bit pattern value of pixel (X, Y) of pattern table `h`: tile `(Y div 8) * 16 + X div 8`, row `Y mod 8`, column
`X mod 8` (R428; tile layout 20_memory.md R103). -/
def patternPixel (s : State) (h X Y : Nat) : Nat :=
  let addr := BitVec.ofNat 16 (4096 * h + 16 * ((Y / 8) * 16 + X / 8) + Y % 8)
  flagNat (bitOf (ppuPeek addr s) (7 - X % 8)) + 2 * flagNat (bitOf (ppuPeek (addr + 8) s) (7 - X % 8))

/-- That pixel coloured through the sub-palette `k` (R428). -/
def patternView (s : State) (h k X Y : Nat) : Rgb :=
  Config.masterPalette ((subPalette s k (patternPixel s h X Y)).setWidth 6)

end Sys2Proof.Machine
end

