-- ==== Sys2Proof/Safety.lean ====
section
/-! DEFINITION. What counts as a good state and as a run of the machine, in the terms claims use. -/

namespace Sys2Proof.Machine

/-- A memory of `size` bytes in canonical form. -/
def memoryOk (size : Nat) (m : Memory) : Bool := Memory.wf m && memoryWithin size m

/-- The palette indices that are never reached (10_state.md R47). -/
def isPaletteAlias (i : Nat) : Bool := i == 0x10 || i == 0x14 || i == 0x18 || i == 0x1C

/-- The palette: 32 bytes of which the four aliased indices hold nothing (10_state.md R47, 20_memory.md R106). -/
def paletteOk (m : Memory) : Bool := memoryOk 0x20 m && m.all fun c => !isPaletteAlias c.1

/-- The frame buffer: 0xF000 entries, each a 6-bit master-palette index (10_state.md R50; log 2). -/
def frameBufferOk (m : Memory) : Bool := memoryOk 0xF000 m && m.all fun c => decide (c.2.toNat < 64)

/-- A Mapper whose banks are in canonical form, with at least one PRG bank (00_scope.md R8). -/
def mapperOk (m : Mapper) : Bool :=
  match m with
  | .mapper0 prg chr => prg.length != 0 && prg.all (memoryOk 0x4000) && chr.all (memoryOk 0x2000)

/-- The cartridge slot holds nothing, or a cartridge the core can run (20_memory.md R117, 70_reset_and_hazards.md R446). -/
def cartOk (cart : Option Cartridge) : Bool :=
  match cart with
  | none => true
  | some c => c.mapperId == 0 && c.mirroring != .fourScreen && mapperOk c.mapper

/-- The banks of a cartridge image are 16384 and 8192 byte memories in canonical form: "the core receives only
well-formed images" (93_implementation_defined.md U9). -/
def imageOk (img : CartImage) : Bool := img.prg.all (memoryOk 0x4000) && img.chr.all (memoryOk 0x2000)

/-- Every memory of the PPU has its canonical form and size. -/
def ppuMemoriesOk (u : Ppu) : Bool :=
  memoryOk 0x400 u.nt0 && memoryOk 0x400 u.nt1 && paletteOk u.pal && memoryOk 0x2000 u.ipat && frameBufferOk u.fb

/-- Break and Reserved are 0 in the register (10_state.md R25). -/
def statusRegisterOk (c : Cpu) : Bool := c.p &&& 0x30 == 0

/-- The raster position is one of the 341 x 262 (10_state.md R42). -/
def rasterOk (u : Ppu) : Bool := decide (u.scanline ≤ 261) && decide (u.dot ≤ 340)

/-- STATUS holds nothing but verticalBlank: bits 4:0 are unused, nothing sets bits 6 and 5 (10_state.md R36). -/
def ppuStatusOk (u : Ppu) : Bool := u.status &&& 0x7F == 0

/-- The invariant of the machine at tick boundaries. -/
abbrev State.Inv (s : State) : Prop :=
  memoryOk 0x800 s.ram = true ∧ ppuMemoriesOk s.ppu = true ∧ cartOk s.cart = true ∧
  statusRegisterOk s.cpu = true ∧ rasterOk s.ppu = true ∧ ppuStatusOk s.ppu = true ∧
  s.ppu.ignoreCtrlWrites = false ∧ s.ppu.nmiPending = false

/-- The open memories of a power-on are memories of their size (70_reset_and_hazards.md R440). -/
abbrev PowerOn.Ok (init : PowerOn) : Prop :=
  memoryOk 0x800 init.ram = true ∧ memoryOk 0x400 init.nt0 = true ∧ memoryOk 0x400 init.nt1 = true ∧
  paletteOk init.pal = true ∧ memoryOk 0x2000 init.ipat = true ∧ frameBufferOk init.fb = true

/-- An event whose image, if it has one, is well formed. -/
def Event.Ok : Event → Bool
  | .insert img => imageOk img
  | .tick | .reset | .remove | .irq => true

/-- The states a run reaches: any power-on with its reset, and then events one after another (70_reset_and_hazards.md
R440, 60_exceptions.md R412). -/
inductive Reachable (p : Config.Params) : State → Prop where
  | boot (init : PowerOn) (h : init.Ok) : Reachable p (State.boot init)
  | event (e : Event) (s t : State) (hs : Reachable p s) (he : e.Ok = true) (h : applyEvent p e s = .next t) :
      Reachable p t

/-- `n` dots of the raster with nothing between them. -/
def ppuRun (g : Config.RenderGating) (cart : Option Cartridge) : Nat → Ppu → Ppu
  | 0, u => u
  | n + 1, u => ppuRun g cart n (ppuStep g cart u)

/-- `n` ticks, stopping at the first that answers no next state. -/
def tickRun (p : Config.Params) : Nat → State → Out
  | 0, s => .next s
  | n + 1, s =>
    match masterTick p s with
    | .next t => tickRun p n t
    | .fault r => .fault r
    | .refused r => .refused r

/-- The parts of the state that no rule reads: `CYC`, `miaSeen`, `oddFrame`, the guard, the OAM bytes, the frame buffer
and the countdown of the other pacing (10_state.md R26, R27, R37, R38, R42, R50, R52). Two states with equal results
here differ in those parts at most. -/
def forgetUnread (s : State) : State :=
  { s with
    cpu := { s.cpu with cyc := 0, miaSeen := false }
    ppu := { s.ppu with oddFrame := false, ignoreCtrlWrites := false, oamAddr := 0, oamData := 0, fb := [] }
    wait := 0 }

end Sys2Proof.Machine
end

