-- ==== Sys2Proof/WellFormed.lean ====
section
/-! DEFINITION. Which terms of `Instr` are instructions of the machine: those whose operand form the opcode table has
for the instruction. -/

namespace Sys2Proof

/-- The modes of the eight-form instructions LDA, ADC, SBC, AND, ORA, EOR, CMP (30_encoding.md R145). -/
def readModes : List Mode := [.imm, .zp, .zpx, .abs, .abx, .aby, .izx, .izy]

/-- The modes of ASL, LSR, ROL, ROR (43_shift_rotate.md R250). -/
def shiftModes : List Mode := [.acc, .zp, .zpx, .abs, .abx]

/-- The modes of INC and DEC (42_arithmetic_logic.md R231, R232). -/
def incDecModes : List Mode := [.zp, .zpx, .abs, .abx]

/-- The modes of CPX and CPY (42_arithmetic_logic.md R229, R230). -/
def cpxModes : List Mode := [.imm, .zp, .abs]

/-- An instruction is well formed when its operand form is one of those its rule lists under "Operands"; a
placeholder when its opcode is one of the 105 and its form has that opcode's mode (30_encoding.md R149, R150). -/
def Instr.WellFormed : Instr → Bool
  | .lda o | .adc o | .sbc o | .and o | .ora o | .eor o | .cmp o => readModes.contains o.mode
  | .ldx o => [.imm, .zp, .zpy, .abs, .aby].contains o.mode
  | .ldy o => [.imm, .zp, .zpx, .abs, .abx].contains o.mode
  | .sta o => [.zp, .zpx, .abs, .abx, .aby, .izx, .izy].contains o.mode
  | .stx o => [.zp, .zpy, .abs].contains o.mode
  | .sty o => [.zp, .zpx, .abs].contains o.mode
  | .bit o => [.zp, .abs].contains o.mode
  | .cpx o | .cpy o => cpxModes.contains o.mode
  | .inc o | .dec o => incDecModes.contains o.mode
  | .asl o | .lsr o | .rol o | .ror o => shiftModes.contains o.mode
  | .jmp o => [.abs, .ind].contains o.mode
  | .jsr o => o.mode == .abs
  | .bpl o | .bmi o | .bvc o | .bvs o | .bcc o | .bcs o | .bne o | .beq o => o.mode == .rel
  | .tax | .tay | .txa | .tya | .tsx | .txs => true
  | .inx | .iny | .dex | .dey | .rts => true
  | .pha | .php | .pla | .plp | .clc | .sec | .cli | .sei | .cld | .sed | .clv | .nop | .rti | .brk => true
  | .mia op o => miaMode op == some o.mode

end Sys2Proof
end

