-- ==== Sys2Proof/Claims.lean ====
section
/-! DEFINITION. The words the statements of Certificates/ are said in, written from the spec and apart from the machine:
the "Operands" lines of files 41 to 45, the flag values, which instruction writes what, which addresses name one byte. -/

namespace Sys2Proof.Claims

open Sys2Proof.Machine

/-! ## Rows -/

/-- A mode an instruction has, with its opcode and base cycle count. -/
abbrev Row := Mode × Byte × Nat

/-- The "Operands" line of each instruction's rule (41_load_store_transfer.md R200 to 45_stack_flags_system.md R295). The
placeholders have none: their base count is open (R297). -/
def rows : Kind → List Row
  | .lda => [(.imm, 0xA9, 2), (.zp, 0xA5, 3), (.zpx, 0xB5, 4), (.abs, 0xAD, 4), (.abx, 0xBD, 4), (.aby, 0xB9, 4), (.izx, 0xA1, 6), (.izy, 0xB1, 5)]
  | .ldx => [(.imm, 0xA2, 2), (.zp, 0xA6, 3), (.zpy, 0xB6, 4), (.abs, 0xAE, 4), (.aby, 0xBE, 4)]
  | .ldy => [(.imm, 0xA0, 2), (.zp, 0xA4, 3), (.zpx, 0xB4, 4), (.abs, 0xAC, 4), (.abx, 0xBC, 4)]
  | .sta => [(.zp, 0x85, 3), (.zpx, 0x95, 4), (.abs, 0x8D, 4), (.abx, 0x9D, 5), (.aby, 0x99, 5), (.izx, 0x81, 6), (.izy, 0x91, 6)]
  | .stx => [(.zp, 0x86, 3), (.zpy, 0x96, 4), (.abs, 0x8E, 4)]
  | .sty => [(.zp, 0x84, 3), (.zpx, 0x94, 4), (.abs, 0x8C, 4)]
  | .tax => [(.imp, 0xAA, 2)]
  | .tay => [(.imp, 0xA8, 2)]
  | .txa => [(.imp, 0x8A, 2)]
  | .tya => [(.imp, 0x98, 2)]
  | .tsx => [(.imp, 0xBA, 2)]
  | .txs => [(.imp, 0x9A, 2)]
  | .adc => [(.imm, 0x69, 2), (.zp, 0x65, 3), (.zpx, 0x75, 4), (.abs, 0x6D, 4), (.abx, 0x7D, 4), (.aby, 0x79, 4), (.izx, 0x61, 6), (.izy, 0x71, 5)]
  | .sbc => [(.imm, 0xE9, 2), (.zp, 0xE5, 3), (.zpx, 0xF5, 4), (.abs, 0xED, 4), (.abx, 0xFD, 4), (.aby, 0xF9, 4), (.izx, 0xE1, 6), (.izy, 0xF1, 5)]
  | .and => [(.imm, 0x29, 2), (.zp, 0x25, 3), (.zpx, 0x35, 4), (.abs, 0x2D, 4), (.abx, 0x3D, 4), (.aby, 0x39, 4), (.izx, 0x21, 6), (.izy, 0x31, 5)]
  | .ora => [(.imm, 0x09, 2), (.zp, 0x05, 3), (.zpx, 0x15, 4), (.abs, 0x0D, 4), (.abx, 0x1D, 4), (.aby, 0x19, 4), (.izx, 0x01, 6), (.izy, 0x11, 5)]
  | .eor => [(.imm, 0x49, 2), (.zp, 0x45, 3), (.zpx, 0x55, 4), (.abs, 0x4D, 4), (.abx, 0x5D, 4), (.aby, 0x59, 4), (.izx, 0x41, 6), (.izy, 0x51, 5)]
  | .bit => [(.zp, 0x24, 3), (.abs, 0x2C, 4)]
  | .cmp => [(.imm, 0xC9, 2), (.zp, 0xC5, 3), (.zpx, 0xD5, 4), (.abs, 0xCD, 4), (.abx, 0xDD, 4), (.aby, 0xD9, 4), (.izx, 0xC1, 6), (.izy, 0xD1, 5)]
  | .cpx => [(.imm, 0xE0, 2), (.zp, 0xE4, 3), (.abs, 0xEC, 4)]
  | .cpy => [(.imm, 0xC0, 2), (.zp, 0xC4, 3), (.abs, 0xCC, 4)]
  | .inc => [(.zp, 0xE6, 5), (.zpx, 0xF6, 6), (.abs, 0xEE, 6), (.abx, 0xFE, 7)]
  | .dec => [(.zp, 0xC6, 5), (.zpx, 0xD6, 6), (.abs, 0xCE, 6), (.abx, 0xDE, 7)]
  | .inx => [(.imp, 0xE8, 2)]
  | .iny => [(.imp, 0xC8, 2)]
  | .dex => [(.imp, 0xCA, 2)]
  | .dey => [(.imp, 0x88, 2)]
  | .asl => [(.acc, 0x0A, 2), (.zp, 0x06, 5), (.zpx, 0x16, 6), (.abs, 0x0E, 6), (.abx, 0x1E, 7)]
  | .lsr => [(.acc, 0x4A, 2), (.zp, 0x46, 5), (.zpx, 0x56, 6), (.abs, 0x4E, 6), (.abx, 0x5E, 7)]
  | .rol => [(.acc, 0x2A, 2), (.zp, 0x26, 5), (.zpx, 0x36, 6), (.abs, 0x2E, 6), (.abx, 0x3E, 7)]
  | .ror => [(.acc, 0x6A, 2), (.zp, 0x66, 5), (.zpx, 0x76, 6), (.abs, 0x6E, 6), (.abx, 0x7E, 7)]
  | .jmp => [(.abs, 0x4C, 3), (.ind, 0x6C, 5)]
  | .jsr => [(.abs, 0x20, 6)]
  | .rts => [(.imp, 0x60, 6)]
  | .bpl => [(.rel, 0x10, 2)]
  | .bmi => [(.rel, 0x30, 2)]
  | .bvc => [(.rel, 0x50, 2)]
  | .bvs => [(.rel, 0x70, 2)]
  | .bcc => [(.rel, 0x90, 2)]
  | .bcs => [(.rel, 0xB0, 2)]
  | .bne => [(.rel, 0xD0, 2)]
  | .beq => [(.rel, 0xF0, 2)]
  | .pha => [(.imp, 0x48, 3)]
  | .php => [(.imp, 0x08, 3)]
  | .pla => [(.imp, 0x68, 4)]
  | .plp => [(.imp, 0x28, 4)]
  | .clc => [(.imp, 0x18, 2)]
  | .sec => [(.imp, 0x38, 2)]
  | .cli => [(.imp, 0x58, 2)]
  | .sei => [(.imp, 0x78, 2)]
  | .cld => [(.imp, 0xD8, 2)]
  | .sed => [(.imp, 0xF8, 2)]
  | .clv => [(.imp, 0xB8, 2)]
  | .nop => [(.imp, 0xEA, 2)]
  | .rti => [(.imp, 0x40, 6)]
  | .brk => [(.imp, 0x00, 7)]
  | .mia => []
/-- The row of an instruction in a list: its mode's. -/
def rowOf (i : Instr) : Option Row := (rows i.kind).find? fun r => r.1 == i.operand.mode

/-- The base cycle count of an instruction; for a placeholder, the open MIA_CYCLES of its opcode (40_cpu_step_and_addressing.md
R184). -/
def baseCount (i : Instr) : Nat :=
  match i with
  | .mia op _ => Config.miaCycles op
  | i => ((rowOf i).map fun r => r.2.2).getD 0

/-- An instruction of the row has the row's opcode before its operand bytes, and executing it answers the next state `t`. -/
def RunsTo (i : Instr) (row : Row) (s t : State) : Prop :=
  encode i = row.2.1 :: i.operand.bytes ∧ exec i s = .next t

/-! ## Registers and flags -/

/-- The state with the CPU registers changed. -/
def withCpu (s : State) (f : Cpu → Cpu) : State := { s with cpu := f s.cpu }

/-- A status byte with the carry replaced. -/
def withC (p : Byte) (c : Bool) : Byte := (p &&& 0xFE) ||| (if c then 0x01 else 0x00)

/-- A status byte with Z and N replaced by those of `v`: "Zero = result byte is 0"; "Negative = bit 7 of result"
(40_cpu_step_and_addressing.md R182). -/
def withZN (p v : Byte) : Byte := (p &&& 0x7D) ||| (if v = 0 then 0x02 else 0x00) ||| (v &&& 0x80)

/-- The carry as a number. -/
def carryIn (s : State) : Nat := (s.cpu.p &&& 0x01).toNat

/-- The stack address of a stack pointer as an index of RAM: "the stack page physical 0x100-0x1FF" (20_memory.md R86). -/
def stackSlot (sp : Byte) : Nat := 0x100 + sp.toNat

/-- The registers a program sees beside `PC` and `P`. -/
inductive Reg where
  | a | x | y | sp
  deriving DecidableEq, Repr

/-- The value of a register. -/
def reg (r : Reg) (s : State) : Byte :=
  match r with
  | .a => s.cpu.a
  | .x => s.cpu.x
  | .y => s.cpu.y
  | .sp => s.cpu.sp

/-- The registers an instruction writes: the column "writes" of 30_encoding.md R146. A shift or rotate writes `A` in its
ACC form alone (43_shift_rotate.md R250). -/
def writesReg (i : Instr) : List Reg :=
  match i with
  | .lda _ | .adc _ | .sbc _ | .and _ | .ora _ | .eor _ | .txa | .tya => [.a]
  | .ldx _ | .tax | .tsx | .inx | .dex => [.x]
  | .ldy _ | .tay | .iny | .dey => [.y]
  | .txs | .pha | .php | .plp | .jsr _ | .rts | .rti | .brk => [.sp]
  | .pla => [.a, .sp]
  | .asl o | .lsr o | .rol o | .ror o => if o = .acc then [.a] else []
  | .sta _ | .stx _ | .sty _ | .bit _ | .cmp _ | .cpx _ | .cpy _ | .inc _ | .dec _ | .jmp _ => []
  | .bpl _ | .bmi _ | .bvc _ | .bvs _ | .bcc _ | .bcs _ | .bne _ | .beq _ => []
  | .clc | .sec | .cli | .sei | .cld | .sed | .clv | .nop | .mia _ _ => []

/-- The flags an instruction writes, as the mask of their bits in `P`: the column "flags written" of 30_encoding.md R146.
PLP and RTI load the whole register, Break and Reserved cleared (10_state.md R25). -/
def flagMask (i : Instr) : Byte :=
  match i with
  | .lda _ | .ldx _ | .ldy _ | .tax | .tay | .txa | .tya | .tsx | .and _ | .ora _ | .eor _ => 0x82
  | .inc _ | .dec _ | .inx | .iny | .dex | .dey | .pla => 0x82
  | .adc _ | .sbc _ => 0xC3
  | .bit _ => 0xC2
  | .cmp _ | .cpx _ | .cpy _ | .asl _ | .lsr _ | .rol _ | .ror _ => 0x83
  | .clc | .sec => 0x01
  | .cli | .sei | .brk => 0x04
  | .cld | .sed => 0x08
  | .clv => 0x40
  | .plp | .rti => 0xFF
  | .sta _ | .stx _ | .sty _ | .txs | .jmp _ | .jsr _ | .rts | .pha | .php | .nop | .mia _ _ => 0x00
  | .bpl _ | .bmi _ | .bvc _ | .bvs _ | .bcc _ | .bcs _ | .bne _ | .beq _ => 0x00

/-- "The complete set of instructions that write `PC` other than by falling through" (44_control_flow.md R272). -/
def transfersControl (i : Instr) : Bool :=
  match i with
  | .jmp _ | .jsr _ | .rts | .rti | .brk => true
  | .bpl _ | .bmi _ | .bvc _ | .bvs _ | .bcc _ | .bcs _ | .bne _ | .beq _ => true
  | _ => false

/-- A branch is taken: the flag condition of its rule (44_control_flow.md R264 to R271). -/
def branchTaken (i : Instr) (s : State) : Bool :=
  match i with
  | .bpl _ => s.cpu.p &&& 0x80 == 0
  | .bmi _ => s.cpu.p &&& 0x80 != 0
  | .bvc _ => s.cpu.p &&& 0x40 == 0
  | .bvs _ => s.cpu.p &&& 0x40 != 0
  | .bcc _ => s.cpu.p &&& 0x01 == 0
  | .bcs _ => s.cpu.p &&& 0x01 != 0
  | .bne _ => s.cpu.p &&& 0x02 == 0
  | .beq _ => s.cpu.p &&& 0x02 != 0
  | _ => false

/-! ## Addresses -/

/-- A page-zero byte of RAM. -/
def zeroPage (s : State) (d : Byte) : Byte := byteAt s.ram d.toNat

/-- The word in page zero whose low byte is at `d`, the high byte's address wrapped within page zero. -/
def zeroPageWord (s : State) (d : Byte) : Word := zeroPage s (d + 1) ++ zeroPage s d

/-- The two addresses lie in different pages of 256 bytes. -/
def otherPage (a b : Word) : Bool := a.toNat / 256 != b.toNat / 256

/-- The target of a branch: the following instruction's address plus the signed offset, modulo 65536
(40_cpu_step_and_addressing.md R172). -/
def branchTarget (s : State) (d : Byte) : Word := BitVec.ofInt 16 (s.cpu.pc.toNat + d.toInt)

/-- The cycles a mode adds: 1 on a page cross of ABX, ABY or IZY (40_cpu_step_and_addressing.md R184). -/
def modeCycles (o : Operand) (s : State) : Nat :=
  match o with
  | .abx a => if otherPage a (a + (0#8 ++ s.cpu.x)) then 1 else 0
  | .aby a => if otherPage a (a + (0#8 ++ s.cpu.y)) then 1 else 0
  | .izy d => if otherPage (zeroPageWord s d) (zeroPageWord s d + (0#8 ++ s.cpu.y)) then 1 else 0
  | _ => 0

/-- The cycles a branch adds: 1 when taken, 1 more into another page (40_cpu_step_and_addressing.md R184). -/
def branchCycles (i : Instr) (s : State) : Nat :=
  match i.operand with
  | .rel d => if branchTaken i s then (if otherPage s.cpu.pc (branchTarget s d) then 2 else 1) else 0
  | _ => 0

/-- The CPU addresses of the PPU's ports, 0x2000-0x3FFF (20_memory.md R87). -/
def isPort (a : Word) : Bool := decide (0x2000 ≤ a.toNat) && decide (a.toNat ≤ 0x3FFF)

/-- The CPU address names port `i`. -/
def isPortNo (i : Nat) (a : Word) : Bool := isPort a && (a.toNat - 0x2000) % 8 == i

/-- Two CPU addresses of RAM name one physical byte (20_memory.md R86). -/
def sameRamByte (a b : Word) : Bool :=
  decide (a.toNat < 0x2000) && decide (b.toNat < 0x2000) && a.toNat % 0x800 == b.toNat % 0x800

/-- The physical byte a PPU address names: which memory (pattern 0, name tables 1 and 2, palette 3) and the index in it
(20_memory.md R100 to R106). -/
def ppuCell (cart : Option Cartridge) (a : Word) : Nat × Nat :=
  let a := a.toNat % 0x4000
  if a < 0x2000 then (0, a)
  else if a < 0x3F00 then (if ntSelect (mirroringOf cart) (BitVec.ofNat 16 a) then 2 else 1, a % 0x400)
  else (3, if a % 32 % 4 = 0 then a % 16 else a % 32)

/-- The PRG banks of the slot. -/
def prgBanks (s : State) : List Memory :=
  match s.cart with
  | some c => match c.mapper with | .mapper0 prg _ => prg
  | none => []

/-- The CHR banks of the slot. -/
def chrBanks (cart : Option Cartridge) : List Memory :=
  match cart with
  | some c => match c.mapper with | .mapper0 _ chr => chr
  | none => []

/-- The bytes stand at `a` and on, upwards, outside the ports, as a read of the bus would find them. -/
def codeAt (bytes : List Byte) (a : Word) (s : State) : Prop :=
  ∀ k, k < bytes.length →
    isPort (a + BitVec.ofNat 16 k) = false ∧ peek (a + BitVec.ofNat 16 k) s = bytes.getD k 0

/-! ## Control transfer -/

/-- What a branch with its base count of 2 leaves (44_control_flow.md R263). -/
def branched (i : Instr) (d : Byte) (s : State) : State :=
  withCpu s fun c =>
    if branchTaken i s then
      { c with pc := branchTarget s d, cyc := c.cyc + (if otherPage s.cpu.pc (branchTarget s d) then 4 else 3) }
    else { c with cyc := c.cyc + 2 }

/-- What an interrupt entry that adds `n` cycles leaves: `PC` high, `PC` low and the status with Break and Reserved forced
stand on the stack, `P.I` is 1, `PC` is the word at the vector (60_exceptions.md R401). -/
def entered (vec : Word) (n : Nat) (s : State) : State :=
  { s with
    ram :=
      storeByte
        (storeByte (storeByte s.ram (stackSlot s.cpu.sp) (BitVec.ofNat 8 (s.cpu.pc.toNat / 256)))
          (stackSlot (s.cpu.sp - 1)) (BitVec.ofNat 8 s.cpu.pc.toNat))
        (stackSlot (s.cpu.sp - 2)) (s.cpu.p ||| 0x30)
    cpu :=
      { s.cpu with
        sp := s.cpu.sp - 3
        p := s.cpu.p ||| 0x04
        pc := peek (vec + 1) s ++ peek vec s
        cyc := s.cpu.cyc + n } }

/-- A read-modify-write instruction in every form of its rows: `res` gives the new byte of the old one, `flags` the status
before Z and N of the new byte are put in (42_arithmetic_logic.md R231, 43_shift_rotate.md R250). With ACC the operand is
`A`; else it is read once and written once at the effective address. -/
def Modifies (i : Operand → Instr) (k : Kind) (res : Byte → Byte) (flags : Byte → Byte → Byte) (s : State) : Prop :=
  ∀ (o : Operand) (r : Row), r ∈ rows k → r.1 = o.mode →
    (o = .acc → RunsTo (i o) r s (withCpu s fun c =>
      { c with a := res c.a, p := withZN (flags c.p c.a) (res c.a), cyc := c.cyc + r.2.2 })) ∧
    (o ≠ .acc → ∃ (ea : Word) (s' : State), effAddr o (s.addCyc r.2.2) = (some ea, s') ∧
      RunsTo (i o) r s (withCpu (memWrite ea (res (memRead ea s').1) (memRead ea s').2) fun c =>
        { c with p := withZN (flags c.p (memRead ea s').1) (res (memRead ea s').1) }))

/-- A store of one register in every form of its rows: one write at the effective address, no read of it, no flag. -/
def Stores (i : Operand → Instr) (k : Kind) (src : Cpu → Byte) (s : State) : Prop :=
  ∀ (o : Operand) (r : Row), r ∈ rows k → r.1 = o.mode →
    ∃ (ea : Word) (s' : State), effAddr o (s.addCyc r.2.2) = (some ea, s') ∧
      RunsTo (i o) r s (memWrite ea (src s.cpu) s')

/-- An instruction that reads its operand once and then changes CPU registers alone, in every form of its rows: `f` gives
the registers from the operand byte (40_cpu_step_and_addressing.md R186). -/
def Reads (i : Operand → Instr) (k : Kind) (f : Byte → Cpu → Cpu) (s : State) : Prop :=
  ∀ (o : Operand) (r : Row), r ∈ rows k → r.1 = o.mode →
    RunsTo (i o) r s (withCpu (readOperand o (s.addCyc r.2.2)).2 (f (readOperand o (s.addCyc r.2.2)).1))

/-- A one-byte instruction of two cycles that changes CPU registers alone: its opcode, and the registers after it beside
the cycle count. -/
def Implied (i : Instr) (op : Byte) (f : Cpu → Cpu) (s : State) : Prop :=
  (Mode.imp, op, 2) ∈ rows i.kind ∧ RunsTo i (.imp, op, 2) s (withCpu s fun c => { f c with cyc := c.cyc + 2 })

/-! ## What an instruction may store to -/

/-- The instructions that store to their operand: STA, STX, STY, INC, DEC, and the shifts and rotates but for their
ACC forms. -/
def storesOperand (i : Instr) : Bool :=
  match i with
  | .sta _ | .stx _ | .sty _ | .inc _ | .dec _ => true
  | .asl o | .lsr o | .rol o | .ror o => o != .acc
  | _ => false

/-- The instructions that read their operand before they store it. -/
def readsBeforeStore (i : Instr) : Bool :=
  match i with
  | .inc _ | .dec _ | .asl _ | .lsr _ | .rol _ | .ror _ => true
  | _ => false

/-- The number of bytes an instruction pushes: PHA and PHP one, JSR two, BRK three. -/
def pushes (i : Instr) : Nat :=
  match i with
  | .pha | .php => 1
  | .jsr _ => 2
  | .brk => 3
  | _ => 0

/-- The fields of a scroll register (10_state.md R39). -/
def coarseXOf (v : BitVec 15) : Nat := v.toNat % 32

def coarseYOf (v : BitVec 15) : Nat := v.toNat / 32 % 32

def nametableXOf (v : BitVec 15) : Nat := v.toNat / 1024 % 2

def nametableYOf (v : BitVec 15) : Nat := v.toNat / 2048 % 2

def fineYOf (v : BitVec 15) : Nat := v.toNat / 4096

/-- The five fields of a scroll register, from bit 0. -/
def scrollFields (v : BitVec 15) : Nat × Nat × Nat × Nat × Nat :=
  (coarseXOf v, coarseYOf v, nametableXOf v, nametableYOf v, fineYOf v)

/-- The background pixel's shifters, bit `15 - x` of each, as a pattern value and a palette selector
(47_ppu_dot_pipeline.md R370). -/
def pixelBits (u : Ppu) : Nat × Nat :=
  let sel (sh : BitVec 16) : Nat := sh.toNat / 2 ^ (15 - u.fineX.toNat) % 2
  (sel u.shPatLo + 2 * sel u.shPatHi, sel u.shAttrLo + 2 * sel u.shAttrHi)

end Sys2Proof.Claims
end

