-- ==== Sys2Proof/Certificates/Slice0/Obligations.lean ====
section
/-! DEFINITION. The statements for the provers. Each formalises rules of spec/, named in its comment; a value or convention
the model chose is named with its log entry. -/

section
open Sys2Proof Sys2Proof.Machine Sys2Proof.Claims

/-! ## Encoding -/

/-- 30_encoding.md R140 to R150, 20_memory.md R81: decoding the bytes of a well-formed instruction, whatever follows them,
gives that instruction and what follows. -/
def Obligations.DecodingUndoesEncoding : Prop :=
  ∀ (i : Instr) (rest : List Byte), i.WellFormed = true → decodeBytes (encode i ++ rest) = .ok i rest

/-- 30_encoding.md R140, R143: no bit is dropped: what decodes is well formed and its bytes are those decoded. -/
def Obligations.DecodedBytesAreTheEncoding : Prop :=
  ∀ (bytes : List Byte) (i : Instr) (rest : List Byte), decodeBytes bytes = .ok i rest →
    i.WellFormed = true ∧ bytes = encode i ++ rest

/-- 30_encoding.md R143: every opcode byte decodes, to a well-formed instruction of one to three bytes that begins with
it. -/
def Obligations.EveryOpcodeDecodes : Prop :=
  ∀ (op b1 b2 : Byte) (rest : List Byte), ∃ (i : Instr) (n : Nat), n ≤ 2 ∧
    decodeBytes (op :: b1 :: b2 :: rest) = .ok i ((b1 :: b2 :: rest).drop n) ∧
    i.WellFormed = true ∧ (encode i).head? = some op ∧ (encode i).length = n + 1

/-- 30_encoding.md R145, R150, R154: one word of each family, its bits written out, decodes to the instruction of the
table. -/
def Obligations.WrittenOutWordsDecode : Prop :=
  decodeTableWord 16 0b0001000010101001 = some (.lda (.imm 0x10)) ∧
  decodeTableWord 24 0b000000101111000010111101 = some (.lda (.abx 0x02F0)) ∧
  decodeTableWord 16 0b1111111110010110 = some (.stx (.zpy 0xFF)) ∧
  decodeTableWord 8 0b10111010 = some .tsx ∧
  decodeTableWord 16 0b1101000001101001 = some (.adc (.imm 0xD0)) ∧
  decodeTableWord 24 0b001000000000001000101100 = some (.bit (.abs 0x2002)) ∧
  decodeTableWord 8 0b00001010 = some (.asl .acc) ∧
  decodeTableWord 24 0b000000101111111101101100 = some (.jmp (.ind 0x02FF)) ∧
  decodeTableWord 16 0b1111101011010000 = some (.bne (.rel 0xFA)) ∧
  decodeTableWord 8 0b00101000 = some .plp ∧
  decodeTableWord 8 0b01111000 = some .sei ∧
  decodeTableWord 8 0b00000000 = some .brk ∧
  decodeTableWord 16 0b0001000000000100 = some (.mia 0x04 (.zp 0x10))

/-! ## The step -/

/-- 40_cpu_step_and_addressing.md R160, 60_exceptions.md R412: when the bytes at the program counter, as the tick's PPU step
and NMI poll leave it, are those of a well-formed instruction, the step is the execution of that instruction with `PC` past
its bytes, and the count of the tick. -/
def Obligations.StepRunsTheDecodedInstruction : Prop :=
  ∀ (s : State) (i : Instr),
    let t := pollNmi Config.params (stepPpu Config.params s)
    s.tick % 3 = 0 → i.WellFormed = true → codeAt (encode i) t.cpu.pc t →
      step s = mapNext countTick (exec i (t.setPc (t.cpu.pc + BitVec.ofNat 16 (encode i).length)))

/-- 40_cpu_step_and_addressing.md R161, 10_state.md R22: the opcode byte and then the operand bytes its mode takes are read
through the bus at ascending addresses, ports included, and `PC` ends at the following instruction. -/
def Obligations.FetchTakesOpcodeThenOperandBytes : Prop :=
  ∀ (s : State),
    let pc := s.cpu.pc
    let r0 := memRead pc s
    let r1 := memRead (pc + 1) r0.2
    let r2 := memRead (pc + 2) r1.2
    let n := (entry r0.1).mode.operandBytes
    fetchInstr s =
      if n = 0 then (decode r0.1 0 0, r0.2.setPc (pc + 1))
      else if n = 1 then (decode r0.1 r1.1 0, r1.2.setPc (pc + 2))
      else (decode r0.1 r1.1 r2.1, r2.2.setPc (pc + 3))

/-- 60_exceptions.md R412, R410: one PPU step, the poll that clears the latch and enters the NMI, a whole instruction on
every third tick, the count. The pacing, the phase (ticks 0, 3, 6, ...) and the gating are the defaults that the model takes
(log 8; the spec's decisions D1, D2, D37). -/
def Obligations.TickOrder : Prop :=
  ∀ (s : State),
    let u := ppuStep .maskGated s.cart s.ppu
    let polled : State :=
      if u.nmiPending then cpuNmi { s with ppu := { u with nmiPending := false } } else { s with ppu := u }
    step s =
      if s.tick % 3 = 0 then mapNext (fun t => { t with tick := t.tick + 1 }) (exec (fetchInstr polled).1 (fetchInstr polled).2)
      else .next { polled with tick := s.tick + 1 }

/-- 20_memory.md R90, 60_exceptions.md R406, R425: no state stops the machine: every step answers a next state, one tick
later, and never halts. -/
def Obligations.EveryStepAnswersNext : Prop :=
  ∀ (s : State), ∃ t : State, step s = .next t ∧ t.tick = s.tick + 1

/-- 40_cpu_step_and_addressing.md R184, R185: every well-formed instruction completes in every state, adds to `CYC` its base
count, its mode's cycle and its branch's cycles and nothing else, and leaves the orchestrator's counters alone. -/
def Obligations.EveryInstructionCompletes : Prop :=
  ∀ (i : Instr) (s : State), i.WellFormed = true → ∃ t : State, exec i s = .next t ∧
    t.cpu.cyc = s.cpu.cyc + baseCount i + modeCycles i.operand s + branchCycles i s ∧ t.tick = s.tick ∧ t.wait = s.wait

/-- The model's own convention (log 9): a term of `Instr` that no opcode stands for, which the decoder never makes, is refused
under its name. -/
def Obligations.TermsWithoutAnOpcodeAreRefused : Prop :=
  ∀ (i : Instr) (s : State), i.WellFormed = false → exec i s = .refused .illFormed

/-! ## Invariants and whole-machine rules -/

/-- The machine's invariant holds right after reset (70_reset_and_hazards.md R440, R441; memories of `State.reset`: log 1). -/
def Obligations.ResetMeetsTheMachineInvariant : Prop :=
  State.reset.Inv

/-- Every step keeps the invariant: the memories stay in canonical form and of their size, the slot holds a cartridge the
core can run, Break and Reserved stay 0, the raster stays on the 341 x 262 grid, STATUS holds nothing but verticalBlank, the
guard stays 0 and no NMI is pending (10_state.md R25, R36, R38, R42, R47; 60_exceptions.md R411). -/
def Obligations.StepKeepsTheMachineInvariant : Prop :=
  ∀ (s t : State), s.Inv → step s = .next t → t.Inv

/-- Every state reached from any power-on by ticks, resets, insertions, removals and IRQ requests, under every choice of
pacing, phase and gating, meets the invariant (70_reset_and_hazards.md R440, R446; 60_exceptions.md R412, R417). -/
def Obligations.ReachableStatesMeetTheMachineInvariant : Prop :=
  ∀ (p : Config.Params) (s : State), Reachable p s → s.Inv

/-- 60_exceptions.md R411: at every tick boundary `nmiPending = 0`, whatever state the tick began in. -/
def Obligations.NoNmiIsPendingAfterATick : Prop :=
  ∀ (s t : State), step s = .next t → t.ppu.nmiPending = false

/-- 10_state.md R26, R27, R37, R38, R42, R52; 60_exceptions.md R421: `CYC`, `miaSeen`, `oddFrame`, the guard, the OAM bytes
and the frame buffer are read by no rule: two states that differ in them alone step to states that differ in them alone.
The countdown `wait` is the other pacing's (log 8). -/
def Obligations.UnreadStateInfluencesNothing : Prop :=
  ∀ (s s' t t' : State), forgetUnread s = forgetUnread s' → step s = .next t → step s' = .next t' →
    forgetUnread t = forgetUnread t'

/-! ## Frames -/

/-- 30_encoding.md R146, column "writes": a register an instruction does not write keeps its value. -/
def Obligations.RegistersNotWrittenKeepTheirValue : Prop :=
  ∀ (i : Instr) (s t : State), exec i s = .next t → ∀ r : Reg, r ∉ writesReg i → reg r t = reg r s

/-- 30_encoding.md R146, column "flags written", and 10_state.md R24, R25: the bits of `P` an instruction does not write keep
their value; PLP and RTI, which load it whole, leave Break and Reserved 0. -/
def Obligations.FlagsNotWrittenKeepTheirValue : Prop :=
  ∀ (i : Instr) (s t : State), exec i s = .next t →
    t.cpu.p &&& ~~~flagMask i = s.cpu.p &&& ~~~flagMask i ∧
    (i = .plp ∨ i = .rti → t.cpu.p &&& 0x30 = 0)

/-- 44_control_flow.md R272, 10_state.md R27: an instruction that transfers no control leaves `PC` at the following
instruction, and only a placeholder sets `miaSeen`. -/
def Obligations.OnlyTransfersWritePc : Prop :=
  ∀ (i : Instr) (s t : State), exec i s = .next t →
    (transfersControl i = false → t.cpu.pc = s.cpu.pc) ∧
    (i.kind ≠ .mia → t.cpu.miaSeen = s.cpu.miaSeen)

/-- 20_memory.md R114, R125, R105, 10_state.md R32, R43, R44: no instruction changes a PRG bank, a CHR bank but the first,
the mirroring mode or the mapper number, nor the raster position, the NMI latch, the shifters, the fetch latches or the
frame buffer. -/
def Obligations.InstructionsLeaveRomAndRasterAlone : Prop :=
  ∀ (i : Instr) (s t : State), exec i s = .next t →
    prgBanks t = prgBanks s ∧ (chrBanks t.cart).tail = (chrBanks s.cart).tail ∧
    t.cart.map (fun c => (c.mirroring, c.mapperId)) = s.cart.map (fun c => (c.mirroring, c.mapperId)) ∧
    (t.ppu.scanline, t.ppu.dot, t.ppu.oddFrame, t.ppu.nmiPending, t.ppu.fb, t.ppu.ignoreCtrlWrites) =
      (s.ppu.scanline, s.ppu.dot, s.ppu.oddFrame, s.ppu.nmiPending, s.ppu.fb, s.ppu.ignoreCtrlWrites) ∧
    (t.ppu.shPatLo, t.ppu.shPatHi, t.ppu.shAttrLo, t.ppu.shAttrHi) =
      (s.ppu.shPatLo, s.ppu.shPatHi, s.ppu.shAttrLo, s.ppu.shAttrHi) ∧
    (t.ppu.ntLatch, t.ppu.atLatch, t.ppu.loLatch, t.ppu.hiLatch) =
      (s.ppu.ntLatch, s.ppu.atLatch, s.ppu.loLatch, s.ppu.hiLatch)

/-- The frame of every form that stores and pushes nothing (loads, transfers, arithmetic, logic, compares, the ACC shifts,
jumps, branches, pulls, returns, flag instructions, NOP, the placeholders): every byte of the CPU space outside the ports and
every byte of the PPU space reads as before, and of the port state only what a read of port 2 or 7 changes can change
(40_cpu_step_and_addressing.md R183; 46_ppu_register_ports.md R333). -/
def Obligations.FormsThatStoreNothingKeepMemory : Prop :=
  ∀ (i : Instr) (s t : State), storesOperand i = false → pushes i = 0 → exec i s = .next t →
    (∀ a : Word, isPort a = false → peek a t = peek a s) ∧ (∀ a : Word, ppuPeek a t = ppuPeek a s) ∧
    t.ram = s.ram ∧ t.cart = s.cart ∧
    t.ppu = { s.ppu with status := t.ppu.status, w := t.ppu.w, rdbuf := t.ppu.rdbuf, v := t.ppu.v }

/-- The frame of the forms that store to their operand (STA, STX, STY, INC, DEC, ASL, LSR, ROL, ROR on memory): with the
effective address the meaning computes, every CPU byte outside the ports that is not the stored one reads as before, and
every PPU byte does but the one port 7 names when the address is port 7's: `v` as it stands when the write is made, after
the operand's read in a read-modify-write (40_cpu_step_and_addressing.md R183; 70_reset_and_hazards.md R454). -/
def Obligations.StoresChangeOneByte : Prop :=
  ∀ (i : Instr) (s s' t : State) (ea : Word), storesOperand i = true →
    effAddr i.operand (s.addCyc (baseCount i)) = (some ea, s') → exec i s = .next t →
    let u := if readsBeforeStore i then (memRead ea s').2.ppu else s'.ppu
    (∀ a : Word, isPort a = false → sameRamByte a ea = false → peek a t = peek a s) ∧
    (∀ a : Word, (isPortNo 7 ea = true → ppuCell s.cart a ≠ ppuCell s.cart (vramAddr u)) → ppuPeek a t = ppuPeek a s)

/-- The frame of PHA, PHP, JSR and BRK: every CPU byte outside the ports that is none of the stack bytes pushed reads as
before; the PPU and the cartridge are unchanged (40_cpu_step_and_addressing.md R180; 60_exceptions.md R401). -/
def Obligations.PushesChangeOnlyTheirStackBytes : Prop :=
  ∀ (i : Instr) (s t : State), pushes i ≠ 0 → exec i s = .next t →
    (∀ a : Word, isPort a = false →
      (∀ k < pushes i, sameRamByte a (BitVec.ofNat 16 (stackSlot (s.cpu.sp - BitVec.ofNat 8 k))) = false) →
      peek a t = peek a s) ∧
    t.ppu = s.ppu ∧ t.cart = s.cart

/-! ## Addressing modes -/

/-- 40_cpu_step_and_addressing.md R162 to R174, R176: the effective address of every mode but IND, the page-cross cycle, and
nothing else changed; `PC` is past the operand bytes. -/
def Obligations.EffectiveAddresses : Prop :=
  ∀ (s : State) (d : Byte) (a : Word),
    effAddr .imp s = (none, s) ∧ effAddr .acc s = (none, s) ∧
    effAddr (.imm d) s = (some (s.cpu.pc - 1), s) ∧
    effAddr (.zp d) s = (some (0#8 ++ d), s) ∧
    effAddr (.zpx d) s = (some (0#8 ++ (d + s.cpu.x)), s) ∧
    effAddr (.zpy d) s = (some (0#8 ++ (d + s.cpu.y)), s) ∧
    effAddr (.abs a) s = (some a, s) ∧
    effAddr (.abx a) s = (some (a + (0#8 ++ s.cpu.x)), s.addCyc (modeCycles (.abx a) s)) ∧
    effAddr (.aby a) s = (some (a + (0#8 ++ s.cpu.y)), s.addCyc (modeCycles (.aby a) s)) ∧
    effAddr (.rel d) s = (some (branchTarget s d), s) ∧
    effAddr (.izx d) s = (some (zeroPageWord s (d + s.cpu.x)), s) ∧
    effAddr (.izy d) s = (some (zeroPageWord s d + (0#8 ++ s.cpu.y)), s.addCyc (modeCycles (.izy d) s))

/-- 40_cpu_step_and_addressing.md R186, R183, R163, 30_encoding.md R142: the operand of a reading form is the operand byte
with IMM, `A` with ACC, and else one bus read at the effective address. That an IMM operand makes no read here is the model's
reading: its one read was the fetch of the operand byte (log 10, DEDUCED). -/
def Obligations.OperandIsReadOnce : Prop :=
  ∀ (o : Operand) (s s' : State) (ea : Word),
    (∀ d, o = .imm d → readOperand o s = (d, s)) ∧
    (o = .acc → readOperand o s = (s.cpu.a, s)) ∧
    ((∀ d, o ≠ .imm d) → effAddr o s = (some ea, s') → readOperand o s = memRead ea s')

/-! ## Loads, stores, transfers -/

/-- 41_load_store_transfer.md R200, R201, R202: LDA, LDX, LDY in every form. -/
def Obligations.LoadsFillTheirRegister : Prop :=
  ∀ (s : State),
    Reads .lda .lda (fun m c => { c with a := m, p := withZN c.p m }) s ∧
    Reads .ldx .ldx (fun m c => { c with x := m, p := withZN c.p m }) s ∧
    Reads .ldy .ldy (fun m c => { c with y := m, p := withZN c.p m }) s

/-- 41_load_store_transfer.md R203, R204, R205: STA, STX, STY in every form. -/
def Obligations.StoresWriteTheirRegister : Prop :=
  ∀ (s : State), Stores .sta .sta Cpu.a s ∧ Stores .stx .stx Cpu.x s ∧ Stores .sty .sty Cpu.y s

/-- 41_load_store_transfer.md R206 to R211, 42_arithmetic_logic.md R233 to R236: the transfers, and the increments and
decrements of an index register. -/
def Obligations.RegisterInstructionsResult : Prop :=
  ∀ (s : State),
    Implied .tax 0xAA (fun c => { c with x := c.a, p := withZN c.p c.a }) s ∧
    Implied .tay 0xA8 (fun c => { c with y := c.a, p := withZN c.p c.a }) s ∧
    Implied .txa 0x8A (fun c => { c with a := c.x, p := withZN c.p c.x }) s ∧
    Implied .tya 0x98 (fun c => { c with a := c.y, p := withZN c.p c.y }) s ∧
    Implied .tsx 0xBA (fun c => { c with x := c.sp, p := withZN c.p c.sp }) s ∧
    Implied .txs 0x9A (fun c => { c with sp := c.x }) s ∧
    Implied .inx 0xE8 (fun c => { c with x := c.x + 1, p := withZN c.p (c.x + 1) }) s ∧
    Implied .iny 0xC8 (fun c => { c with y := c.y + 1, p := withZN c.p (c.y + 1) }) s ∧
    Implied .dex 0xCA (fun c => { c with x := c.x - 1, p := withZN c.p (c.x - 1) }) s ∧
    Implied .dey 0x88 (fun c => { c with y := c.y - 1, p := withZN c.p (c.y - 1) }) s

/-! ## Arithmetic and logic -/

/-- 42_arithmetic_logic.md R220, R221: ADC in every form. `A` is the sum modulo 256, C its ninth bit, V whether the sum of
the signed readings and the carry leaves -128..127, Z and N those of the result; D, I, B, U as before, D unread. -/
def Obligations.AddWithCarryResult : Prop :=
  ∀ (s : State) (o : Operand) (r : Row), r ∈ rows .adc → r.1 = o.mode →
    let m := readOperand o (s.addCyc r.2.2)
    let sum : Nat := s.cpu.a.toNat + m.1.toNat + carryIn s
    let signed : Int := s.cpu.a.toInt + m.1.toInt + carryIn s
    ∃ p : Byte, RunsTo (.adc o) r s (withCpu m.2 fun c => { c with a := BitVec.ofNat 8 sum, p := p }) ∧
      p &&& 0x3C = s.cpu.p &&& 0x3C ∧
      p.getLsbD 0 = decide (255 < sum) ∧
      p.getLsbD 6 = decide (signed < -128 ∨ 127 < signed) ∧
      p.getLsbD 1 = decide (sum % 256 = 0) ∧
      p.getLsbD 7 = decide (128 ≤ sum % 256)

/-- 42_arithmetic_logic.md R222: SBC in every form. `A` is `A - m - (1 - C)` modulo 256, C is 1 when no borrow occurred, V
whether the difference of the signed readings leaves -128..127. -/
def Obligations.SubtractWithBorrowResult : Prop :=
  ∀ (s : State) (o : Operand) (r : Row), r ∈ rows .sbc → r.1 = o.mode →
    let m := readOperand o (s.addCyc r.2.2)
    let diff : Int := s.cpu.a.toNat - m.1.toNat - (1 - carryIn s)
    let signed : Int := s.cpu.a.toInt - m.1.toInt - (1 - carryIn s)
    ∃ p : Byte, RunsTo (.sbc o) r s (withCpu m.2 fun c => { c with a := BitVec.ofInt 8 diff, p := p }) ∧
      p &&& 0x3C = s.cpu.p &&& 0x3C ∧
      p.getLsbD 0 = decide (0 ≤ diff) ∧
      p.getLsbD 6 = decide (signed < -128 ∨ 127 < signed) ∧
      p.getLsbD 1 = decide (diff % 256 = 0) ∧
      p.getLsbD 7 = decide (128 ≤ diff % 256)

/-- 42_arithmetic_logic.md R223 to R226, R227 to R230: AND, ORA, EOR, BIT, CMP, CPX, CPY in every form. After a comparison C is
the unsigned one, Z and N are those of the 8-bit difference, V is unchanged and C is not read. -/
def Obligations.LogicAndCompareResult : Prop :=
  ∀ (s : State),
    Reads .and .and (fun m c => { c with a := c.a &&& m, p := withZN c.p (c.a &&& m) }) s ∧
    Reads .ora .ora (fun m c => { c with a := c.a ||| m, p := withZN c.p (c.a ||| m) }) s ∧
    Reads .eor .eor (fun m c => { c with a := c.a ^^^ m, p := withZN c.p (c.a ^^^ m) }) s ∧
    Reads .bit .bit (fun m c =>
      { c with p := (c.p &&& 0x3D) ||| (m &&& 0xC0) ||| (if c.a &&& m = 0 then 0x02 else 0x00) }) s ∧
    Reads .cmp .cmp (fun m c => { c with p := withZN (withC c.p (decide (m.toNat ≤ c.a.toNat))) (c.a - m) }) s ∧
    Reads .cpx .cpx (fun m c => { c with p := withZN (withC c.p (decide (m.toNat ≤ c.x.toNat))) (c.x - m) }) s ∧
    Reads .cpy .cpy (fun m c => { c with p := withZN (withC c.p (decide (m.toNat ≤ c.y.toNat))) (c.y - m) }) s

/-- 42_arithmetic_logic.md R231, R232: INC and DEC of memory in every form: one read, one write, Z and N. -/
def Obligations.IncrementMemoryResult : Prop :=
  ∀ (s : State),
    Modifies .inc .inc (fun m => m + 1) (fun p _ => p) s ∧ Modifies .dec .dec (fun m => m - 1) (fun p _ => p) s

/-- 43_shift_rotate.md R250 to R254: ASL, LSR, ROL, ROR in every form, the accumulator's and memory's. The bit shifted out
goes to C; a 0, or for the rotations the old C, enters. -/
def Obligations.ShiftResult : Prop :=
  ∀ (s : State),
    Modifies .asl .asl (fun m => BitVec.ofNat 8 (2 * m.toNat)) (fun p m => withC p (decide (128 ≤ m.toNat))) s ∧
    Modifies .lsr .lsr (fun m => BitVec.ofNat 8 (m.toNat / 2)) (fun p m => withC p (decide (m.toNat % 2 = 1))) s ∧
    Modifies .rol .rol (fun m => BitVec.ofNat 8 (2 * m.toNat + carryIn s))
      (fun p m => withC p (decide (128 ≤ m.toNat))) s ∧
    Modifies .ror .ror (fun m => BitVec.ofNat 8 (m.toNat / 2 + 128 * carryIn s))
      (fun p m => withC p (decide (m.toNat % 2 = 1))) s

/-! ## Control transfer -/

/-- 44_control_flow.md R260, 40_cpu_step_and_addressing.md R169, R175: JMP to an absolute address, and through a pointer
whose high byte is read from the pointer's own page. -/
def Obligations.JumpResult : Prop :=
  ∀ (s : State) (a : Word),
    RunsTo (.jmp (.abs a)) (.abs, 0x4C, 3) s (withCpu s fun c => { c with pc := a, cyc := c.cyc + 3 }) ∧
    (let l := memRead a s
     let h := memRead (BitVec.ofNat 16 (a.toNat / 256 * 256 + (a.toNat + 1) % 256)) l.2
     RunsTo (.jmp (.ind a)) (.ind, 0x6C, 5) s (withCpu h.2 fun c => { c with pc := h.1 ++ l.1, cyc := c.cyc + 5 }))

/-- 44_control_flow.md R261, R262: JSR pushes the address of its own last byte, high byte first, and jumps; RTS pops low then
high and adds 1. -/
def Obligations.SubroutineResult : Prop :=
  ∀ (s : State) (a : Word),
    (let ret := s.cpu.pc - 1
     RunsTo (.jsr (.abs a)) (.abs, 0x20, 6) s
       { withCpu s (fun c => { c with pc := a, sp := c.sp - 2, cyc := c.cyc + 6 }) with
         ram := storeByte (storeByte s.ram (stackSlot s.cpu.sp) (BitVec.ofNat 8 (ret.toNat / 256)))
           (stackSlot (s.cpu.sp - 1)) (BitVec.ofNat 8 ret.toNat) }) ∧
    RunsTo .rts (.imp, 0x60, 6) s
      (withCpu s fun c =>
        { c with
          pc := (byteAt s.ram (stackSlot (c.sp + 2)) ++ byteAt s.ram (stackSlot (c.sp + 1))) + 1
          sp := c.sp + 2
          cyc := c.cyc + 6 })

/-- 44_control_flow.md R263 to R271: the eight branches: taken on their flag's condition, 3 cycles or 4 into another page;
else 2 cycles and the following instruction. -/
def Obligations.BranchResult : Prop :=
  ∀ (s : State) (d : Byte) (i : Instr) (op : Byte),
    (i, op) ∈ [(.bpl (.rel d), 0x10), (.bmi (.rel d), 0x30), (.bvc (.rel d), 0x50), (.bvs (.rel d), 0x70),
      (.bcc (.rel d), 0x90), (.bcs (.rel d), 0xB0), (.bne (.rel d), 0xD0), (.beq (.rel d), 0xF0)] →
    RunsTo i (.rel, op, 2) s (branched i d s)

/-! ## Stack, flags, system -/

/-- 45_stack_flags_system.md R280 to R283, R294, 10_state.md R25: PHA, PHP, PLA, PLP, RTI. A pushed status has Break and
Reserved 1, a pulled one has them 0; RTI pops the status, then `PC` low, then `PC` high, with no 1 added. -/
def Obligations.StackInstructionsResult : Prop :=
  ∀ (s : State),
    let top (k : Byte) := byteAt s.ram (stackSlot (s.cpu.sp + k))
    RunsTo .pha (.imp, 0x48, 3) s
      { withCpu s (fun c => { c with sp := c.sp - 1, cyc := c.cyc + 3 }) with
        ram := storeByte s.ram (stackSlot s.cpu.sp) s.cpu.a } ∧
    RunsTo .php (.imp, 0x08, 3) s
      { withCpu s (fun c => { c with sp := c.sp - 1, cyc := c.cyc + 3 }) with
        ram := storeByte s.ram (stackSlot s.cpu.sp) (s.cpu.p ||| 0x30) } ∧
    RunsTo .pla (.imp, 0x68, 4) s
      (withCpu s fun c => { c with a := top 1, p := withZN c.p (top 1), sp := c.sp + 1, cyc := c.cyc + 4 }) ∧
    RunsTo .plp (.imp, 0x28, 4) s
      (withCpu s fun c => { c with p := top 1 &&& 0xCF, sp := c.sp + 1, cyc := c.cyc + 4 }) ∧
    RunsTo .rti (.imp, 0x40, 6) s
      (withCpu s fun c => { c with p := top 1 &&& 0xCF, pc := top 3 ++ top 2, sp := c.sp + 3, cyc := c.cyc + 6 })

/-- 40_cpu_step_and_addressing.md R180, R181: the stack helpers in every state: the byte goes to page 1 at the stack
pointer, which wraps inside its page, and a pop after a push gives the byte and the pointer back. -/
def Obligations.PushThenPop : Prop :=
  ∀ (s : State) (v : Byte),
    push v s = { withCpu s (fun c => { c with sp := c.sp - 1 }) with ram := storeByte s.ram (stackSlot s.cpu.sp) v } ∧
    pop s = (byteAt s.ram (stackSlot (s.cpu.sp + 1)), withCpu s fun c => { c with sp := c.sp + 1 }) ∧
    (pop (push v s)).1 = v ∧ (pop (push v s)).2.cpu = s.cpu

/-- 45_stack_flags_system.md R284 to R290, R292: the flag instructions write the one flag named; NOP does nothing. -/
def Obligations.FlagInstructionsResult : Prop :=
  ∀ (s : State),
    Implied .clc 0x18 (fun c => { c with p := c.p &&& 0xFE }) s ∧
    Implied .sec 0x38 (fun c => { c with p := c.p ||| 0x01 }) s ∧
    Implied .cli 0x58 (fun c => { c with p := c.p &&& 0xFB }) s ∧
    Implied .sei 0x78 (fun c => { c with p := c.p ||| 0x04 }) s ∧
    Implied .cld 0xD8 (fun c => { c with p := c.p &&& 0xF7 }) s ∧
    Implied .sed 0xF8 (fun c => { c with p := c.p ||| 0x08 }) s ∧
    Implied .clv 0xB8 (fun c => { c with p := c.p &&& 0xBF }) s ∧
    Implied .nop 0xEA (fun c => c) s

/-- 45_stack_flags_system.md R295, 60_exceptions.md R404: BRK skips the padding byte and enters at 0xFFFE with 7 cycles,
whatever `P.I` is. -/
def Obligations.BreakResult : Prop :=
  ∀ (s : State), RunsTo .brk (.imp, 0x00, 7) s (entered 0xFFFE 7 (withCpu s fun c => { c with pc := c.pc + 1 }))

/-- 45_stack_flags_system.md R297: a placeholder, in every form, adds its open count MIA_CYCLES and its mode's cycle, sets
`miaSeen`, and changes nothing else: no access at the effective address, no flag, no register. The modes are those of
30_encoding.md R150 (log 7), the count is a free value (log 4). -/
def Obligations.PlaceholderResult : Prop :=
  ∀ (s : State) (op : Byte) (o : Operand), (Instr.mia op o).WellFormed = true →
    RunsTo (.mia op o) (o.mode, op, Config.miaCycles op) s
      (withCpu s fun c => { c with cyc := c.cyc + Config.miaCycles op + modeCycles o s, miaSeen := true })

/-- 60_exceptions.md R401, R402, R403: the entry sequence at the NMI and the IRQ vector, and its two callers: the NMI is not
masked; the IRQ is masked by `P.I`, and a masked request changes nothing. -/
def Obligations.InterruptEntries : Prop :=
  ∀ (s : State),
    interrupt 0xFFFA s = entered 0xFFFA 0 s ∧
    interrupt 0xFFFE s = entered 0xFFFE 0 s ∧
    cpuNmi s = entered 0xFFFA Config.intCycles s ∧
    cpuIrq s = if s.cpu.p &&& 0x04 = 0 then entered 0xFFFE Config.intCycles s else s

/-- 44_control_flow.md R261, R262, 45_stack_flags_system.md R294, 60_exceptions.md R401, R414: an RTS executed right after a
JSR, and an RTI right after an NMI entry (where Break and Reserved were 0, as they are in every reachable state), resume at the
following instruction with every register and the status as they were. The 13 cycles are the RTI's 6 and the 7 of INT_CYCLES,
the default that the model takes (log 15). -/
def Obligations.ReturnsUndoCallAndInterrupt : Prop :=
  ∀ (s : State) (a : Word),
    (∃ t t' : State, exec (.jsr (.abs a)) s = .next t ∧ exec .rts t = .next t' ∧
      t.cpu.pc = a ∧ t'.cpu = { s.cpu with cyc := s.cpu.cyc + 12 }) ∧
    (s.cpu.p &&& 0x30 = 0 →
      ∃ t : State, exec .rti (cpuNmi s) = .next t ∧ t.cpu = { s.cpu with cyc := s.cpu.cyc + 13 })

/-! ## The two address spaces -/

/-- 20_memory.md R84, R86 to R88, R111 to R113: what a read of each CPU address answers, and that nothing but a port read
changes state. -/
def Obligations.CpuReadMap : Prop :=
  ∀ (a : Word) (s : State),
    (a.toNat < 0x2000 → memRead a s = (byteAt s.ram (a.toNat % 0x800), s)) ∧
    (isPort a = true →
      let r := portRead s.cart s.ppu (portOfIndex ((a.toNat - 0x2000) % 8))
      memRead a s = (r.1, { s with ppu := r.2 })) ∧
    (0x4000 ≤ a.toNat → a.toNat < 0x6000 → memRead a s = (0x00, s)) ∧
    (s.cart = none → 0x4000 ≤ a.toNat → memRead a s = (0x00, s)) ∧
    (∀ (c : Cartridge) (prg chr : List Memory), s.cart = some c → c.mapper = .mapper0 prg chr →
      (0x6000 ≤ a.toNat → a.toNat < 0x8000 → memRead a s = (0x00, s)) ∧
      (0x8000 ≤ a.toNat → a.toNat < 0xC000 → memRead a s = (byteAt (prg.headD []) (a.toNat % 0x4000), s)) ∧
      (0xC000 ≤ a.toNat → memRead a s = (byteAt (prg.getLastD []) (a.toNat % 0x4000), s)))

/-- 20_memory.md R85 to R88, R114: what a write of each CPU address does: RAM through its mirrors, the ports, and nothing from
0x4000 on, with or without a cartridge. -/
def Obligations.CpuWriteMap : Prop :=
  ∀ (a : Word) (d : Byte) (s : State),
    (a.toNat < 0x2000 → memWrite a d s = { s with ram := storeByte s.ram (a.toNat % 0x800) d }) ∧
    (isPort a = true →
      let r := portWrite s.cart s.ppu (portOfIndex ((a.toNat - 0x2000) % 8)) d
      memWrite a d s = { s with cart := r.1, ppu := r.2 }) ∧
    (0x4000 ≤ a.toNat → memWrite a d s = s)

/-- 20_memory.md R100 to R106, R115: what a read of each PPU address answers: the first CHR bank or the internal pattern
memory, a name table by the mirroring mode, the palette with its aliases; addresses repeat every 0x4000. Horizontal with no
cartridge is NT_MIRROR_NO_CART at the default that the model takes (log 15). -/
def Obligations.PpuReadMap : Prop :=
  ∀ (cart : Option Cartridge) (u : Ppu) (addr : Word),
    let a := addr.toNat % 0x4000
    let mode := match cart with | some c => c.mirroring | none => .horizontal
    let q := a / 0x400 % 4
    let second : Bool :=
      match mode with
      | .vertical => q % 2 == 1
      | .horizontal => q / 2 == 1
      | .fourScreen => Config.ntSelectFourScreen (BitVec.ofNat 2 q)
    (a < 0x2000 → ppuRead cart u addr = byteAt ((chrBanks cart).headD u.ipat) a) ∧
    (0x2000 ≤ a → a < 0x3F00 → ppuRead cart u addr = byteAt (if second then u.nt1 else u.nt0) (a % 0x400)) ∧
    (0x3F00 ≤ a → ppuRead cart u addr = byteAt u.pal (if a % 4 = 0 then a % 16 else a % 32))

/-- 20_memory.md R101, R104, R106, R116: a byte written in the PPU space reads back at every address that names its physical
byte, every other address reads as before, and nothing else of the PPU changes. -/
def Obligations.PpuStoreReadsBack : Prop :=
  ∀ (cart : Option Cartridge) (u : Ppu) (a b : Word) (d : Byte),
    let r := ppuWrite cart u a d
    ppuRead r.1 r.2 b = (if ppuCell cart b = ppuCell cart a then d else ppuRead cart u b) ∧
    r.2 = { u with nt0 := r.2.nt0, nt1 := r.2.nt1, pal := r.2.pal, ipat := r.2.ipat }

/-! ## The ports -/

/-- 46_ppu_register_ports.md R311, R312, R314 to R317, R320, R322, R327: a read of STATUS answers the byte and clears
verticalBlank and the toggle, and a write of it changes nothing; CTRL, MASK, OAMADDR and OAMDATA store the byte whole, CTRL's
two low bits become the name-table bits of `t`, and a read of a port that is not STATUS or DATA answers PPU_WO_READ and
changes nothing. -/
def Obligations.ControlAndStatusPorts : Prop :=
  ∀ (cart : Option Cartridge) (u : Ppu) (d : Byte),
    portRead cart u .status = (u.status, { u with status := u.status &&& 0x7F, w := false }) ∧
    portWrite cart u .status d = (cart, u) ∧
    (∃ t : BitVec 15, portWrite cart u .ctrl d = (cart, { u with ctrl := d, t := t }) ∧
      scrollFields t = (coarseXOf u.t, coarseYOf u.t, d.toNat % 2, d.toNat / 2 % 2, fineYOf u.t)) ∧
    portWrite cart u .mask d = (cart, { u with mask := d }) ∧
    portWrite cart u .oamAddr d = (cart, { u with oamAddr := d }) ∧
    portWrite cart u .oamData d = (cart, { u with oamData := d }) ∧
    (∀ i ∈ [Port.ctrl, .mask, .oamAddr, .oamData, .scroll, .addr], portRead cart u i = (Config.ppuWoRead, u))

/-- 46_ppu_register_ports.md R323, R324, R332: the two writes of SCROLL and of ADDR, told apart by the one toggle. -/
def Obligations.ScrollAndAddressWrites : Prop :=
  ∀ (cart : Option Cartridge) (u : Ppu) (d : Byte),
    (u.w = false →
      (∃ t : BitVec 15,
        portWrite cart u .scroll d = (cart, { u with fineX := BitVec.ofNat 3 d.toNat, t := t, w := true }) ∧
        scrollFields t = (d.toNat / 8, coarseYOf u.t, nametableXOf u.t, nametableYOf u.t, fineYOf u.t)) ∧
      (∃ t : BitVec 15, portWrite cart u .addr d = (cart, { u with t := t, w := true }) ∧
        t.toNat = d.toNat % 64 * 256 + u.t.toNat % 256)) ∧
    (u.w = true →
      (∃ t : BitVec 15, portWrite cart u .scroll d = (cart, { u with t := t, w := false }) ∧
        scrollFields t = (coarseXOf u.t, d.toNat / 8, nametableXOf u.t, nametableYOf u.t, d.toNat % 8)) ∧
      (∃ t : BitVec 15, portWrite cart u .addr d = (cart, { u with t := t, v := t, w := false }) ∧
        t.toNat = u.t.toNat / 256 * 256 + d.toNat))

/-- 46_ppu_register_ports.md R325, R328, R330: a read of DATA below the palette answers the buffered byte, in the palette the
byte itself, and fills the buffer; a write goes to the PPU space at once; both add 1 or 32 to `v`. -/
def Obligations.DataPortAccess : Prop :=
  ∀ (cart : Option Cartridge) (u : Ppu) (d : Byte),
    let a := u.v.toNat % 0x4000
    let next : BitVec 15 := BitVec.ofNat 15 (u.v.toNat + if u.ctrl.getLsbD 2 then 32 else 1)
    portRead cart u .data =
      (if a < 0x3F00 then u.rdbuf else ppuRead cart u (BitVec.ofNat 16 a),
       { u with
         rdbuf := ppuRead cart u (BitVec.ofNat 16 (if a < 0x3F00 then a else a - 0x1000))
         v := next }) ∧
    portWrite cart u .data d =
      ((ppuWrite cart u (BitVec.ofNat 16 a) d).1, { (ppuWrite cart u (BitVec.ofNat 16 a) d).2 with v := next })

/-- The round trip of 46_ppu_register_ports.md R326 (derived there from R324, R325, R328) through the bus: an ADDR pair, a
DATA write, the ADDR pair again; then in the palette the first read answers the byte written; below it the first read answers
the old buffer and puts the byte written into the buffer, and the second answers it while the address it reads at is still
below the palette (at 0x3EFF the increment leads into the palette, whose reads R325 does not buffer). -/
def Obligations.DataPortRoundTrip : Prop :=
  ∀ (s : State) (a : Word) (d : Byte), s.ppu.w = false → a.toNat < 0x4000 →
    let point (s : State) : State := memWrite 0x2006 (loByte a) (memWrite 0x2006 (hiByte a) s)
    let r := memRead 0x2007 (point (memWrite 0x2007 d (point s)))
    (a.toNat < 0x3F00 → r.1 = s.ppu.rdbuf ∧ r.2.ppu.rdbuf = d ∧
      (a.toNat + (if s.ppu.ctrl.getLsbD 2 then 32 else 1) < 0x3F00 → (memRead 0x2007 r.2).1 = d)) ∧
    (0x3F00 ≤ a.toNat → r.1 = d)

/-! ## The dot pipeline -/

/-- 47_ppu_dot_pipeline.md R351: from the top left position, the n-th dot is at scanline `(n div 341) mod 262`, dot
`n mod 341`. -/
def Obligations.RasterPositionOfNthDot : Prop :=
  ∀ (g : Config.RenderGating) (cart : Option Cartridge) (u : Ppu) (n : Nat), u.scanline = 0 → u.dot = 0 →
    (ppuRun g cart n u).scanline = n / 341 % 262 ∧ (ppuRun g cart n u).dot = n % 341

/-- 47_ppu_dot_pipeline.md R354, R355, R356: the flag events of a dot, whatever the rendering gate: (261, 1) clears the three
flags and toggles the parity, (241, 1) sets verticalBlank and, with CTRL bit 7, latches the NMI, and no other dot touches
them. -/
def Obligations.FlagEventsOfADot : Prop :=
  ∀ (g : Config.RenderGating) (cart : Option Cartridge) (u : Ppu),
    let after := ppuStep g cart u
    (after.status, after.oddFrame, after.nmiPending) =
      if u.scanline = 261 ∧ u.dot = 1 then (u.status &&& 0x1F, !u.oddFrame, u.nmiPending)
      else if u.scanline = 241 ∧ u.dot = 1 then (u.status ||| 0x80, u.oddFrame, u.nmiPending || u.ctrl.getLsbD 7)
      else (u.status, u.oddFrame, u.nmiPending)

/-- 47_ppu_dot_pipeline.md R350, R352, R353: no dot changes a port register, `t`, fine X, the toggle, the read buffer or a
PPU memory but the frame buffer; and on the idle scanlines 240 to 260, or with both show bits of MASK 0, no dot changes `v`,
a shifter or a fetch latch. -/
def Obligations.WhatADotLeavesAlone : Prop :=
  ∀ (cart : Option Cartridge) (u : Ppu),
    let after := ppuStep .maskGated cart u
    (after.ctrl, after.mask, after.oamAddr, after.oamData, after.t, after.fineX, after.w, after.rdbuf) =
      (u.ctrl, u.mask, u.oamAddr, u.oamData, u.t, u.fineX, u.w, u.rdbuf) ∧
    (after.nt0, after.nt1, after.pal, after.ipat, after.ignoreCtrlWrites) =
      (u.nt0, u.nt1, u.pal, u.ipat, u.ignoreCtrlWrites) ∧
    ((240 ≤ u.scanline ∧ u.scanline ≤ 260) ∨ u.mask &&& 0x18 = 0 →
      (after.v, after.shPatLo, after.shPatHi, after.shAttrLo, after.shAttrHi) =
        (u.v, u.shPatLo, u.shPatHi, u.shAttrLo, u.shAttrHi) ∧
      (after.ntLatch, after.atLatch, after.loLatch, after.hiLatch) = (u.ntLatch, u.atLatch, u.loLatch, u.hiLatch))

/-- 47_ppu_dot_pipeline.md R358 to R365, R373: the eight dots of a fetch cycle on a render line put into the shifters, behind
the eight bits already there, the two pattern bytes and the palette selector of the tile at the scroll position, read at the
addresses that the fields of `v` give, and move `v` one tile on (and one row at dot 256). -/
def Obligations.FetchCycleLoadsOneTileRow : Prop :=
  ∀ (cart : Option Cartridge) (u : Ppu) (k : Nat),
    (k < 32 ∨ k = 40 ∨ k = 41) → u.dot = 8 * k + 1 → (u.scanline < 240 ∨ u.scanline = 261) → u.mask &&& 0x18 ≠ 0 →
    let after := ppuRun .maskGated cart 8 u
    let cx := coarseXOf u.v
    let cy := coarseYOf u.v
    let base := 0x2000 + 0x800 * nametableYOf u.v + 0x400 * nametableXOf u.v
    let tile := ppuRead cart u (BitVec.ofNat 16 (base + 32 * cy + cx))
    let selByte := ppuRead cart u (BitVec.ofNat 16 (base + 0x3C0 + 8 * (cy / 4) + cx / 4))
    let selector := selByte.toNat / 2 ^ (4 * (cy / 2 % 2) + 2 * (cx / 2 % 2)) % 4
    let row := (if u.ctrl.getLsbD 4 then 0x1000 else 0) + 16 * tile.toNat + fineYOf u.v
    after.shPatLo = (u.shPatLo <<< 8) ||| (ppuRead cart u (BitVec.ofNat 16 row)).setWidth 16 ∧
    after.shPatHi = (u.shPatHi <<< 8) ||| (ppuRead cart u (BitVec.ofNat 16 (row + 8))).setWidth 16 ∧
    after.shAttrLo = (u.shAttrLo <<< 8) ||| (if selector % 2 = 1 then 0x00FF else 0x0000) ∧
    after.shAttrHi = (u.shAttrHi <<< 8) ||| (if selector / 2 = 1 then 0x00FF else 0x0000) ∧
    after.v = (if k = 31 then incY (incX u.v) else incX u.v)

/-- 47_ppu_dot_pipeline.md R365 to R368: the scroll updates, field by field: coarse X counts to 31 and switches nametableX;
fine Y carries into coarse Y, which wraps at 29 with a switch of nametableY and at 31 without; the two copies from `t`. -/
def Obligations.ScrollUpdates : Prop :=
  ∀ (v t : BitVec 15),
    let cx := coarseXOf v
    let cy := coarseYOf v
    let nx := nametableXOf v
    let ny := nametableYOf v
    let fy := fineYOf v
    scrollFields (incX v) = (if cx = 31 then (0, cy, 1 - nx, ny, fy) else (cx + 1, cy, nx, ny, fy)) ∧
    scrollFields (incY v) =
      (if fy < 7 then (cx, cy, nx, ny, fy + 1)
       else if cy = 29 then (cx, 0, nx, 1 - ny, 0)
       else if cy = 31 then (cx, 0, nx, ny, 0)
       else (cx, cy + 1, nx, ny, 0)) ∧
    scrollFields (copyX v t) = (coarseXOf t, cy, nametableXOf t, ny, fy) ∧
    scrollFields (copyY v t) = (cx, coarseYOf t, nx, nametableYOf t, fineYOf t)

/-- 47_ppu_dot_pipeline.md R366, R367, R368: where the scroll updates fall on a render line with rendering on and no fetch
cycle under way: dots 257 (horizontal copy) and 280 to 304 of the pre-render line (vertical copy); `v` stands still on the
other dots from 258 to 320. -/
def Obligations.ScrollCopiesFallOnTheirDots : Prop :=
  ∀ (cart : Option Cartridge) (u : Ppu), (u.scanline < 240 ∨ u.scanline = 261) → u.mask &&& 0x18 ≠ 0 →
    257 ≤ u.dot → u.dot ≤ 320 →
    (ppuStep .maskGated cart u).v =
      if u.dot = 257 then copyX u.v u.t
      else if u.scanline = 261 ∧ 280 ≤ u.dot ∧ u.dot ≤ 304 then copyY u.v u.t
      else u.v

/-- 47_ppu_dot_pipeline.md R370, R371: the pixel of a visible dot goes to entry `dot - 1 + 256 * scanline` and no other dot
writes the frame buffer; the colour is the backdrop when the background is off or the pattern value is 0, else that of palette
entry `4 * pa + px`. An entry is the 6-bit master-palette index (log 2). -/
def Obligations.PixelOutput : Prop :=
  ∀ (cart : Option Cartridge) (u : Ppu),
    let px := (pixelBits u).1
    let pa := (pixelBits u).2
    let index := if u.mask.getLsbD 3 = true ∧ px ≠ 0 then 4 * pa + px else 0
    (ppuStep .maskGated cart u).fb =
      if u.scanline ≤ 239 ∧ 1 ≤ u.dot ∧ u.dot ≤ 256 then
        storeByte u.fb (u.dot - 1 + 256 * u.scanline) (byteAt u.pal index &&& 0x3F)
      else u.fb

/-! ## Reset and the cartridge slot -/

/-- 70_reset_and_hazards.md R441, R442: `CpuReset` gives the CPU registers their reset values and `PC` the word at 0xFFFC, and
leaves everything else alone. -/
def Obligations.CpuResetResult : Prop :=
  ∀ (s : State),
    cpuReset s =
      { s with
        cpu :=
          { a := 0x00, x := 0x00, y := 0x00, sp := 0xFD, pc := peek 0xFFFD s ++ peek 0xFFFC s, p := 0x04, cyc := 7,
            miaSeen := false } }

/-- 70_reset_and_hazards.md R440: the machine after power-on and the reset with no cartridge, for all contents of the open
memories: `CpuReset` changes nothing of it, the slot is empty, the counters and every PPU register are 0. -/
def Obligations.PowerOnState : Prop :=
  ∀ (init : PowerOn),
    let s := State.boot init
    let u := s.ppu
    cpuReset s = s ∧ s.cart = none ∧ s.cpu.pc = 0x0000 ∧ s.ram = init.ram ∧ s.tick = 0 ∧
    (u.ctrl, u.mask, u.status, u.oamAddr, u.oamData, u.rdbuf) = (0, 0, 0, 0, 0, 0) ∧
    (u.v, u.t, u.fineX, u.w, u.scanline, u.dot, u.oddFrame, u.nmiPending) = (0, 0, 0, false, 0, 0, false, false) ∧
    (u.shPatLo, u.shPatHi, u.shAttrLo, u.shAttrHi) = (0, 0, 0, 0) ∧
    (u.ntLatch, u.atLatch, u.loLatch, u.hiLatch) = (0, 0, 0, 0) ∧
    (u.nt0, u.nt1, u.pal, u.ipat, u.fb) = (init.nt0, init.nt1, init.pal, init.ipat, init.fb)

/-- 70_reset_and_hazards.md R446: an image of another mapper, without a PRG bank or with four-screen mirroring is refused; any
other is attached with its banks, replaces what was attached and ends in the CPU reset, whose `PC` is the word at the end of
the last PRG bank; RAM, PPU and tick are unchanged. Removal empties the slot and nothing else. -/
def Obligations.CartridgeInsertionAndRemoval : Prop :=
  ∀ (img : CartImage) (s : State),
    (img.mapperId ≠ 0 ∨ img.prg = [] ∨ img.mirroring = .fourScreen → insertCartridge img s = .unsupported) ∧
    (img.mapperId = 0 → img.prg ≠ [] → img.mirroring ≠ .fourScreen →
      let last := img.prg.getLastD []
      insertCartridge img s =
        .ok
          { s with
            cart := some { mirroring := img.mirroring, mapperId := 0, mapper := .mapper0 img.prg img.chr }
            cpu :=
              { a := 0x00, x := 0x00, y := 0x00, sp := 0xFD, pc := byteAt last 0x3FFD ++ byteAt last 0x3FFC, p := 0x04,
                cyc := 7, miaSeen := false } }) ∧
    removeCartridge s = { s with cart := none }

end
end

