-- ==== Sys2Proof/Laws/Codec.lean ====
section
/-! SUPPORT. The encoder's tables and the decoder's table agree: the lemmas a proof about the encoding cites. -/

namespace Sys2Proof

/-- The table has 256 entries, so `entry` never takes its default. -/
theorem opTable_length : opTable.length = 256 := by decide +kernel

@[simp] theorem wordOf_parts (a : Word) : wordOf (hiByte a) (loByte a) = a := by
  have h : ∀ i < 16, (wordOf (hiByte a) (loByte a)).getLsbD i = a.getLsbD i := by
    intro i hi
    simp only [wordOf, hiByte, loByte, BitVec.getLsbD_append, BitVec.getLsbD_extractLsb']
    by_cases h : i < 8
    · simp [h]
    · simp only [h, if_false]
      rw [show 8 + (i - 8) = i by omega]
      simp; omega
  exact BitVec.eq_of_getLsbD_eq h

@[simp] theorem hiByte_wordOf (hi lo : Byte) : hiByte (wordOf hi lo) = hi := by
  apply BitVec.eq_of_getLsbD_eq
  intro i hi'
  simp only [wordOf, hiByte, BitVec.getLsbD_append, BitVec.getLsbD_extractLsb']
  simp [hi']

@[simp] theorem loByte_wordOf (hi lo : Byte) : loByte (wordOf hi lo) = lo := by
  apply BitVec.eq_of_getLsbD_eq
  intro i hi'
  simp only [wordOf, loByte, BitVec.getLsbD_append, BitVec.getLsbD_extractLsb']
  simp [hi']

/-- The operand form a mode makes has that mode. -/
@[simp] theorem Mode.operand_mode (m : Mode) (b1 b2 : Byte) : (m.operand b1 b2).mode = m := by cases m <;> rfl

/-- The instruction of a kind has that kind. -/
@[simp] theorem Kind.instr_kind (k : Kind) (op : Byte) (o : Operand) : (k.instr op o).kind = k := by cases k <;> rfl

/-- A row of the per-instruction table is an entry of the 256. -/
theorem forms_entry (k : Kind) :
    k.forms.all (fun r => entry r.2 == ⟨k, r.1, (entry r.2).cycles⟩ && (entry r.2).cycles.isSome) = true := by
  cases k <;> decide +kernel

/-- A row of the placeholder table is an entry of the 256. -/
theorem miaMode_entry : ∀ op : Byte, (miaMode op).all (fun m => entry op == ⟨.mia, m, none⟩) = true := by
  decide +kernel

theorem lookup_forms {l : List (Mode × Byte)} {m : Mode} {op : Byte} (h : l.lookup m = some op) : (m, op) ∈ l := by
  induction l with
  | nil => cases h
  | cons r l ih =>
    obtain ⟨a, b⟩ := r
    rw [List.lookup_cons] at h
    split at h
    · next e => simp_all
    · exact List.mem_cons_of_mem _ (ih h)

/-- The entry of an instruction's opcode has the instruction's kind and mode. -/
theorem entry_of_opcode {i : Instr} {op : Byte} (h : i.opcode? = some op) :
    (entry op).kind = i.kind ∧ (entry op).mode = i.operand.mode := by
  have forms : ∀ (k : Kind) (m : Mode), k.forms.lookup m = some op → (entry op).kind = k ∧ (entry op).mode = m := by
    intro k m hk
    have := List.all_eq_true.1 (forms_entry k) _ (lookup_forms hk)
    simp only [Bool.and_eq_true, beq_iff_eq] at this
    rw [this.1]; exact ⟨rfl, rfl⟩
  cases i <;> first
    | exact forms _ _ h
    | (simp only [Instr.opcode?] at h
       split at h
       · next e =>
         cases h
         have := miaMode_entry op
         rw [e] at this
         simp only [Option.all_some, beq_iff_eq] at this
         rw [this]; exact ⟨rfl, rfl⟩
       · cases h)

/-- An instruction is rebuilt from its opcode's kind and its operand form. -/
theorem instr_of_kind {i : Instr} {op : Byte} (h : i.opcode? = some op) : i.kind.instr op i.operand = i := by
  cases i <;> first
    | rfl
    | (simp only [Instr.opcode?] at h
       split at h
       · cases h; rfl
       · cases h)

/-- Well formed means that some opcode stands for the term. -/
theorem wellFormed_iff_opcode (i : Instr) : i.WellFormed = i.opcode?.isSome := by
  cases i <;> first
    | rfl
    | (rename_i o; cases o <;> rfl)
    | (rename_i op o; simp only [Instr.WellFormed, Instr.opcode?]; split <;> simp_all)

theorem opcode_of_wellFormed {i : Instr} (h : i.WellFormed = true) : ∃ op, i.opcode? = some op :=
  Option.isSome_iff_exists.1 (by rw [← wellFormed_iff_opcode]; exact h)

/-- A mode's operand bytes, as the form lists them, give the form back. -/
theorem operand_of_bytes (o : Operand) (rest : List Byte) :
    o.bytes.length = o.mode.operandBytes ∧
      o.mode.operand ((o.bytes ++ rest).getD 0 0) ((o.bytes ++ rest).getD 1 0) = o := by
  cases o <;> simp [Operand.bytes, Operand.mode, Mode.operandBytes, Mode.operand]

/-- The instruction an opcode decodes to has that opcode. -/
theorem opcode_of_decode (op b1 b2 : Byte) : (decode op b1 b2).opcode? = some op := by
  have base : ∀ op : Byte, (decode op 0 0).opcode? = some op := by decide +kernel
  have step : ∀ (k : Kind) (m : Mode), (k.instr op (m.operand b1 b2)).opcode? = (k.instr op (m.operand 0 0)).opcode? := by
    intro k m
    cases k <;> cases m <;> rfl
  rw [← base op]
  exact step _ _

/-- What decodes is well formed. -/
theorem wellFormed_decode (op b1 b2 : Byte) : (decode op b1 b2).WellFormed = true := by
  rw [wellFormed_iff_opcode, opcode_of_decode]; rfl

end Sys2Proof
end

