-- ==== Sys2Proof/Laws/Memory.lean ====
section
/-! SUPPORT. The laws of a memory: read after write, and that every operation keeps the canonical form. -/

namespace Sys2Proof.Machine

@[simp] theorem byteAt_nil (a : Nat) : byteAt [] a = unlisted := rfl

theorem lookup_insertCell_same (a : Nat) (b : Byte) (m : Memory) (h : ∀ c ∈ m, c.1 ≠ a) :
    List.lookup a (insertCell (a, b) m) = some b := by
  induction m with
  | nil => simp [insertCell]
  | cons d m ih =>
    unfold insertCell
    have hd : (a == d.1) = false := by simpa using fun e : a = d.1 => h d (by simp) e.symm
    split
    · simp
    · rw [List.lookup_cons, hd]
      exact ih fun c hc => h c (by simp [hc])

theorem lookup_insertCell_other {a k : Nat} (b : Byte) (m : Memory) (h : k ≠ a) :
    List.lookup k (insertCell (a, b) m) = List.lookup k m := by
  have hk : (k == a) = false := by simpa using h
  induction m with
  | nil => simp [insertCell, List.lookup_cons, hk]
  | cons d m ih =>
    unfold insertCell
    split
    · rw [List.lookup_cons, hk]
    · rw [List.lookup_cons, List.lookup_cons, ih]

theorem lookup_filter_same (a : Nat) (m : Memory) : List.lookup a (m.filter fun c => c.1 != a) = none := by
  induction m with
  | nil => rfl
  | cons d m ih =>
    rw [List.filter_cons]
    split
    · next hd =>
      have : (a == d.1) = false := by
        simp only [bne_iff_ne, ne_eq] at hd
        simpa using fun e : a = d.1 => hd e.symm
      rw [List.lookup_cons, this]
      exact ih
    · exact ih

theorem lookup_filter_other {a k : Nat} (m : Memory) (h : k ≠ a) :
    List.lookup k (m.filter fun c => c.1 != a) = List.lookup k m := by
  induction m with
  | nil => rfl
  | cons d m ih =>
    rw [List.filter_cons]
    split
    · rw [List.lookup_cons, List.lookup_cons, ih]
    · next hd =>
      have hd : d.1 = a := by simpa using hd
      have : (k == d.1) = false := by simpa [hd] using h
      rw [List.lookup_cons, this]
      exact ih

/-- A byte reads back as it was stored. -/
@[simp] theorem byteAt_storeByte_same (m : Memory) (a : Nat) (b : Byte) : byteAt (storeByte m a b) a = b := by
  unfold byteAt storeByte
  dsimp only
  split
  · next h => rw [lookup_filter_same, h]; rfl
  · rw [lookup_insertCell_same _ _ _ (by simp)]; rfl

/-- A store leaves every other byte alone. -/
theorem byteAt_storeByte_other (m : Memory) {a k : Nat} (b : Byte) (h : k ≠ a) :
    byteAt (storeByte m a b) k = byteAt m k := by
  unfold byteAt storeByte
  dsimp only
  split
  · rw [lookup_filter_other m h]
  · rw [lookup_insertCell_other b _ h, lookup_filter_other m h]

theorem byteAt_storeByte (m : Memory) (a k : Nat) (b : Byte) :
    byteAt (storeByte m a b) k = if k = a then b else byteAt m k := by
  split
  · next h => rw [h, byteAt_storeByte_same]
  · next h => exact byteAt_storeByte_other m b h

theorem Memory.wf_cons (c : Host.Cell) (m : Memory) :
    Memory.wf (c :: m) = true ↔ c.2 ≠ unlisted ∧ (∀ d ∈ m, c.1 < d.1) ∧ Memory.wf m = true := by
  simp [Memory.wf, and_assoc]

theorem Memory.wf_filter (p : Host.Cell → Bool) (m : Memory) (h : Memory.wf m = true) :
    Memory.wf (m.filter p) = true := by
  induction m with
  | nil => rfl
  | cons c m ih =>
    obtain ⟨hv, hlt, hm⟩ := (Memory.wf_cons c m).1 h
    rw [List.filter_cons]
    split
    · exact (Memory.wf_cons _ _).2 ⟨hv, fun d hd => hlt d (List.mem_filter.1 hd).1, ih hm⟩
    · exact ih hm

theorem mem_insertCell (c d : Host.Cell) (m : Memory) : d ∈ insertCell c m ↔ d = c ∨ d ∈ m := by
  induction m with
  | nil => simp [insertCell]
  | cons e m ih =>
    unfold insertCell
    split
    · simp
    · simp only [List.mem_cons, ih]; tauto

theorem Memory.wf_insertCell (c : Host.Cell) (m : Memory) (hc : c.2 ≠ unlisted) (hne : ∀ d ∈ m, d.1 ≠ c.1)
    (h : Memory.wf m = true) : Memory.wf (insertCell c m) = true := by
  induction m with
  | nil => simp [insertCell, Memory.wf, hc]
  | cons e m ih =>
    obtain ⟨hv, hlt, hm⟩ := (Memory.wf_cons e m).1 h
    unfold insertCell
    split
    · next hce =>
      refine (Memory.wf_cons _ _).2 ⟨hc, fun d hd => ?_, h⟩
      rcases List.mem_cons.1 hd with rfl | hd
      · exact hce
      · exact hce.trans (hlt d hd)
    · next hce =>
      have hec : e.1 < c.1 := by
        have := hne e (by simp)
        omega
      refine (Memory.wf_cons _ _).2 ⟨hv, fun d hd => ?_, ih (fun d hd => hne d (by simp [hd])) hm⟩
      rcases (mem_insertCell c d m).1 hd with rfl | hd
      · exact hec
      · exact hlt d hd

/-- A store keeps the canonical form. -/
theorem Memory.wf_storeByte (m : Memory) (a : Nat) (b : Byte) (h : Memory.wf m = true) :
    Memory.wf (storeByte m a b) = true := by
  unfold storeByte
  dsimp only
  split
  · exact Memory.wf_filter _ _ h
  · next hb => exact Memory.wf_insertCell _ _ hb (by simp) (Memory.wf_filter _ _ h)

/-- The cells of a memory after a store: the stored one and old ones. -/
theorem mem_storeByte {m : Memory} {a : Nat} {b : Byte} {c : Host.Cell} (h : c ∈ storeByte m a b) :
    c = (a, b) ∨ c ∈ m := by
  unfold storeByte at h
  dsimp only at h
  split at h
  · exact .inr (List.mem_filter.1 h).1
  · rcases (mem_insertCell _ _ _).1 h with h | h
    · exact .inl h
    · exact .inr (List.mem_filter.1 h).1

/-- A store at an address below the size keeps every listed address below it. -/
theorem memoryWithin_storeByte {size : Nat} {m : Memory} {a : Nat} (b : Byte) (ha : a < size)
    (h : memoryWithin size m = true) : memoryWithin size (storeByte m a b) = true := by
  simp only [memoryWithin, List.all_eq_true, decide_eq_true_eq] at h ⊢
  intro c hc
  rcases mem_storeByte hc with rfl | hc
  · exact ha
  · exact h c hc

theorem memoryOfBytes_ge (a : Nat) (bs : List Byte) : ∀ c ∈ memoryOfBytes a bs, a ≤ c.1 := by
  induction bs generalizing a with
  | nil => simp [memoryOfBytes]
  | cons b bs ih =>
    intro c hc
    unfold memoryOfBytes at hc
    split at hc
    · have := ih (a + 1) c hc; omega
    · rcases List.mem_cons.1 hc with rfl | hc
      · exact Nat.le_refl _
      · have := ih (a + 1) c hc; omega

/-- The memory made of a list of bytes is in canonical form. -/
theorem Memory.wf_memoryOfBytes (a : Nat) (bs : List Byte) : Memory.wf (memoryOfBytes a bs) = true := by
  induction bs generalizing a with
  | nil => rfl
  | cons b bs ih =>
    unfold memoryOfBytes
    split
    · exact ih _
    · next hb =>
      exact (Memory.wf_cons _ _).2 ⟨hb, fun d hd => by have := memoryOfBytes_ge (a + 1) bs d hd; simp; omega, ih _⟩

end Sys2Proof.Machine
end

