-- ==== Sys2Proof/Laws/State.lean ====
section
/-! SUPPORT. What each register update does to each register and to the rest of the state, true by rfl; the bits of the
status register after each flag update. -/

namespace Sys2Proof.Machine

/-! ## `setA` -/

@[simp] theorem setA_a (s : State) (v : Byte) : (s.setA v).cpu.a = v := rfl
@[simp] theorem setA_x (s : State) (v : Byte) : (s.setA v).cpu.x = s.cpu.x := rfl
@[simp] theorem setA_y (s : State) (v : Byte) : (s.setA v).cpu.y = s.cpu.y := rfl
@[simp] theorem setA_sp (s : State) (v : Byte) : (s.setA v).cpu.sp = s.cpu.sp := rfl
@[simp] theorem setA_pc (s : State) (v : Byte) : (s.setA v).cpu.pc = s.cpu.pc := rfl
@[simp] theorem setA_p (s : State) (v : Byte) : (s.setA v).cpu.p = s.cpu.p := rfl
@[simp] theorem setA_cyc (s : State) (v : Byte) : (s.setA v).cpu.cyc = s.cpu.cyc := rfl
@[simp] theorem setA_miaSeen (s : State) (v : Byte) : (s.setA v).cpu.miaSeen = s.cpu.miaSeen := rfl
@[simp] theorem setA_ppu (s : State) (v : Byte) : (s.setA v).ppu = s.ppu := rfl
@[simp] theorem setA_ram (s : State) (v : Byte) : (s.setA v).ram = s.ram := rfl
@[simp] theorem setA_cart (s : State) (v : Byte) : (s.setA v).cart = s.cart := rfl
@[simp] theorem setA_tick (s : State) (v : Byte) : (s.setA v).tick = s.tick := rfl
@[simp] theorem setA_wait (s : State) (v : Byte) : (s.setA v).wait = s.wait := rfl

/-! ## `setX` -/

@[simp] theorem setX_a (s : State) (v : Byte) : (s.setX v).cpu.a = s.cpu.a := rfl
@[simp] theorem setX_x (s : State) (v : Byte) : (s.setX v).cpu.x = v := rfl
@[simp] theorem setX_y (s : State) (v : Byte) : (s.setX v).cpu.y = s.cpu.y := rfl
@[simp] theorem setX_sp (s : State) (v : Byte) : (s.setX v).cpu.sp = s.cpu.sp := rfl
@[simp] theorem setX_pc (s : State) (v : Byte) : (s.setX v).cpu.pc = s.cpu.pc := rfl
@[simp] theorem setX_p (s : State) (v : Byte) : (s.setX v).cpu.p = s.cpu.p := rfl
@[simp] theorem setX_cyc (s : State) (v : Byte) : (s.setX v).cpu.cyc = s.cpu.cyc := rfl
@[simp] theorem setX_miaSeen (s : State) (v : Byte) : (s.setX v).cpu.miaSeen = s.cpu.miaSeen := rfl
@[simp] theorem setX_ppu (s : State) (v : Byte) : (s.setX v).ppu = s.ppu := rfl
@[simp] theorem setX_ram (s : State) (v : Byte) : (s.setX v).ram = s.ram := rfl
@[simp] theorem setX_cart (s : State) (v : Byte) : (s.setX v).cart = s.cart := rfl
@[simp] theorem setX_tick (s : State) (v : Byte) : (s.setX v).tick = s.tick := rfl
@[simp] theorem setX_wait (s : State) (v : Byte) : (s.setX v).wait = s.wait := rfl

/-! ## `setY` -/

@[simp] theorem setY_a (s : State) (v : Byte) : (s.setY v).cpu.a = s.cpu.a := rfl
@[simp] theorem setY_x (s : State) (v : Byte) : (s.setY v).cpu.x = s.cpu.x := rfl
@[simp] theorem setY_y (s : State) (v : Byte) : (s.setY v).cpu.y = v := rfl
@[simp] theorem setY_sp (s : State) (v : Byte) : (s.setY v).cpu.sp = s.cpu.sp := rfl
@[simp] theorem setY_pc (s : State) (v : Byte) : (s.setY v).cpu.pc = s.cpu.pc := rfl
@[simp] theorem setY_p (s : State) (v : Byte) : (s.setY v).cpu.p = s.cpu.p := rfl
@[simp] theorem setY_cyc (s : State) (v : Byte) : (s.setY v).cpu.cyc = s.cpu.cyc := rfl
@[simp] theorem setY_miaSeen (s : State) (v : Byte) : (s.setY v).cpu.miaSeen = s.cpu.miaSeen := rfl
@[simp] theorem setY_ppu (s : State) (v : Byte) : (s.setY v).ppu = s.ppu := rfl
@[simp] theorem setY_ram (s : State) (v : Byte) : (s.setY v).ram = s.ram := rfl
@[simp] theorem setY_cart (s : State) (v : Byte) : (s.setY v).cart = s.cart := rfl
@[simp] theorem setY_tick (s : State) (v : Byte) : (s.setY v).tick = s.tick := rfl
@[simp] theorem setY_wait (s : State) (v : Byte) : (s.setY v).wait = s.wait := rfl

/-! ## `setSp` -/

@[simp] theorem setSp_a (s : State) (v : Byte) : (s.setSp v).cpu.a = s.cpu.a := rfl
@[simp] theorem setSp_x (s : State) (v : Byte) : (s.setSp v).cpu.x = s.cpu.x := rfl
@[simp] theorem setSp_y (s : State) (v : Byte) : (s.setSp v).cpu.y = s.cpu.y := rfl
@[simp] theorem setSp_sp (s : State) (v : Byte) : (s.setSp v).cpu.sp = v := rfl
@[simp] theorem setSp_pc (s : State) (v : Byte) : (s.setSp v).cpu.pc = s.cpu.pc := rfl
@[simp] theorem setSp_p (s : State) (v : Byte) : (s.setSp v).cpu.p = s.cpu.p := rfl
@[simp] theorem setSp_cyc (s : State) (v : Byte) : (s.setSp v).cpu.cyc = s.cpu.cyc := rfl
@[simp] theorem setSp_miaSeen (s : State) (v : Byte) : (s.setSp v).cpu.miaSeen = s.cpu.miaSeen := rfl
@[simp] theorem setSp_ppu (s : State) (v : Byte) : (s.setSp v).ppu = s.ppu := rfl
@[simp] theorem setSp_ram (s : State) (v : Byte) : (s.setSp v).ram = s.ram := rfl
@[simp] theorem setSp_cart (s : State) (v : Byte) : (s.setSp v).cart = s.cart := rfl
@[simp] theorem setSp_tick (s : State) (v : Byte) : (s.setSp v).tick = s.tick := rfl
@[simp] theorem setSp_wait (s : State) (v : Byte) : (s.setSp v).wait = s.wait := rfl

/-! ## `setPc` -/

@[simp] theorem setPc_a (s : State) (v : Word) : (s.setPc v).cpu.a = s.cpu.a := rfl
@[simp] theorem setPc_x (s : State) (v : Word) : (s.setPc v).cpu.x = s.cpu.x := rfl
@[simp] theorem setPc_y (s : State) (v : Word) : (s.setPc v).cpu.y = s.cpu.y := rfl
@[simp] theorem setPc_sp (s : State) (v : Word) : (s.setPc v).cpu.sp = s.cpu.sp := rfl
@[simp] theorem setPc_pc (s : State) (v : Word) : (s.setPc v).cpu.pc = v := rfl
@[simp] theorem setPc_p (s : State) (v : Word) : (s.setPc v).cpu.p = s.cpu.p := rfl
@[simp] theorem setPc_cyc (s : State) (v : Word) : (s.setPc v).cpu.cyc = s.cpu.cyc := rfl
@[simp] theorem setPc_miaSeen (s : State) (v : Word) : (s.setPc v).cpu.miaSeen = s.cpu.miaSeen := rfl
@[simp] theorem setPc_ppu (s : State) (v : Word) : (s.setPc v).ppu = s.ppu := rfl
@[simp] theorem setPc_ram (s : State) (v : Word) : (s.setPc v).ram = s.ram := rfl
@[simp] theorem setPc_cart (s : State) (v : Word) : (s.setPc v).cart = s.cart := rfl
@[simp] theorem setPc_tick (s : State) (v : Word) : (s.setPc v).tick = s.tick := rfl
@[simp] theorem setPc_wait (s : State) (v : Word) : (s.setPc v).wait = s.wait := rfl

/-! ## `setP` -/

@[simp] theorem setP_a (s : State) (v : Byte) : (s.setP v).cpu.a = s.cpu.a := rfl
@[simp] theorem setP_x (s : State) (v : Byte) : (s.setP v).cpu.x = s.cpu.x := rfl
@[simp] theorem setP_y (s : State) (v : Byte) : (s.setP v).cpu.y = s.cpu.y := rfl
@[simp] theorem setP_sp (s : State) (v : Byte) : (s.setP v).cpu.sp = s.cpu.sp := rfl
@[simp] theorem setP_pc (s : State) (v : Byte) : (s.setP v).cpu.pc = s.cpu.pc := rfl
@[simp] theorem setP_p (s : State) (v : Byte) : (s.setP v).cpu.p = v := rfl
@[simp] theorem setP_cyc (s : State) (v : Byte) : (s.setP v).cpu.cyc = s.cpu.cyc := rfl
@[simp] theorem setP_miaSeen (s : State) (v : Byte) : (s.setP v).cpu.miaSeen = s.cpu.miaSeen := rfl
@[simp] theorem setP_ppu (s : State) (v : Byte) : (s.setP v).ppu = s.ppu := rfl
@[simp] theorem setP_ram (s : State) (v : Byte) : (s.setP v).ram = s.ram := rfl
@[simp] theorem setP_cart (s : State) (v : Byte) : (s.setP v).cart = s.cart := rfl
@[simp] theorem setP_tick (s : State) (v : Byte) : (s.setP v).tick = s.tick := rfl
@[simp] theorem setP_wait (s : State) (v : Byte) : (s.setP v).wait = s.wait := rfl

/-! ## `addCyc` -/

@[simp] theorem addCyc_a (s : State) (n : Nat) : (s.addCyc n).cpu.a = s.cpu.a := rfl
@[simp] theorem addCyc_x (s : State) (n : Nat) : (s.addCyc n).cpu.x = s.cpu.x := rfl
@[simp] theorem addCyc_y (s : State) (n : Nat) : (s.addCyc n).cpu.y = s.cpu.y := rfl
@[simp] theorem addCyc_sp (s : State) (n : Nat) : (s.addCyc n).cpu.sp = s.cpu.sp := rfl
@[simp] theorem addCyc_pc (s : State) (n : Nat) : (s.addCyc n).cpu.pc = s.cpu.pc := rfl
@[simp] theorem addCyc_p (s : State) (n : Nat) : (s.addCyc n).cpu.p = s.cpu.p := rfl
@[simp] theorem addCyc_cyc (s : State) (n : Nat) : (s.addCyc n).cpu.cyc = s.cpu.cyc + n := rfl
@[simp] theorem addCyc_miaSeen (s : State) (n : Nat) : (s.addCyc n).cpu.miaSeen = s.cpu.miaSeen := rfl
@[simp] theorem addCyc_ppu (s : State) (n : Nat) : (s.addCyc n).ppu = s.ppu := rfl
@[simp] theorem addCyc_ram (s : State) (n : Nat) : (s.addCyc n).ram = s.ram := rfl
@[simp] theorem addCyc_cart (s : State) (n : Nat) : (s.addCyc n).cart = s.cart := rfl
@[simp] theorem addCyc_tick (s : State) (n : Nat) : (s.addCyc n).tick = s.tick := rfl
@[simp] theorem addCyc_wait (s : State) (n : Nat) : (s.addCyc n).wait = s.wait := rfl

/-! ## `markMia` -/

@[simp] theorem markMia_a (s : State) : s.markMia.cpu.a = s.cpu.a := rfl
@[simp] theorem markMia_x (s : State) : s.markMia.cpu.x = s.cpu.x := rfl
@[simp] theorem markMia_y (s : State) : s.markMia.cpu.y = s.cpu.y := rfl
@[simp] theorem markMia_sp (s : State) : s.markMia.cpu.sp = s.cpu.sp := rfl
@[simp] theorem markMia_pc (s : State) : s.markMia.cpu.pc = s.cpu.pc := rfl
@[simp] theorem markMia_p (s : State) : s.markMia.cpu.p = s.cpu.p := rfl
@[simp] theorem markMia_cyc (s : State) : s.markMia.cpu.cyc = s.cpu.cyc := rfl
@[simp] theorem markMia_miaSeen (s : State) : s.markMia.cpu.miaSeen = true := rfl
@[simp] theorem markMia_ppu (s : State) : s.markMia.ppu = s.ppu := rfl
@[simp] theorem markMia_ram (s : State) : s.markMia.ram = s.ram := rfl
@[simp] theorem markMia_cart (s : State) : s.markMia.cart = s.cart := rfl
@[simp] theorem markMia_tick (s : State) : s.markMia.tick = s.tick := rfl
@[simp] theorem markMia_wait (s : State) : s.markMia.wait = s.wait := rfl

/-! ## Bits of a byte -/

/-- Replacing a bit gives that bit its value and leaves the others. -/
@[simp] theorem bitOf_setBit (b : Byte) (i j : Nat) (v : Bool) (hi : i < 8) :
    bitOf (setBit b i v) j = if j = i then v else bitOf b j := by
  unfold bitOf setBit
  have key : (1#8 <<< i).getLsbD j = decide (j = i) := by
    rw [BitVec.getLsbD_shiftLeft, BitVec.getLsbD_one]
    by_cases h : j = i
    · subst h; simp [hi]
    · simp only [h, decide_false, Bool.and_eq_false_iff, decide_eq_false_iff_not, Bool.not_eq_false']
      by_cases h' : j < i
      · exact .inl (.inr (by simpa using h'))
      · exact .inr (by simp; omega)
  by_cases h : j = i
  · rcases v <;> simp [h, hi]
  · rcases v
    · simp only [Bool.false_eq_true, if_false, BitVec.getLsbD_and, BitVec.getLsbD_not, key, h, decide_false]
      by_cases hj : j < 8
      · simp [hj]
      · simp [BitVec.getLsbD_of_ge _ _ (Nat.not_lt.1 hj)]
    · simp [BitVec.getLsbD_or, key, h]

/-- Replacing a bit other than Break and Reserved keeps those two. -/
theorem setBit_and_breakReserved (b : Byte) (i : Nat) (v : Bool) (h : i < 4 ∨ i = 6 ∨ i = 7) :
    setBit b i v &&& 0x30 = b &&& 0x30 := by
  have : i = 0 ∨ i = 1 ∨ i = 2 ∨ i = 3 ∨ i = 6 ∨ i = 7 := by omega
  rcases this with rfl | rfl | rfl | rfl | rfl | rfl <;> rcases v <;> (revert b; decide +kernel)

/-! ## `setC` -/

@[simp] theorem setC_a (s : State) (b : Bool) : (s.setC b).cpu.a = s.cpu.a := rfl
@[simp] theorem setC_x (s : State) (b : Bool) : (s.setC b).cpu.x = s.cpu.x := rfl
@[simp] theorem setC_y (s : State) (b : Bool) : (s.setC b).cpu.y = s.cpu.y := rfl
@[simp] theorem setC_sp (s : State) (b : Bool) : (s.setC b).cpu.sp = s.cpu.sp := rfl
@[simp] theorem setC_pc (s : State) (b : Bool) : (s.setC b).cpu.pc = s.cpu.pc := rfl
@[simp] theorem setC_p (s : State) (b : Bool) : (s.setC b).cpu.p = setBit s.cpu.p 0 b := rfl
@[simp] theorem setC_cyc (s : State) (b : Bool) : (s.setC b).cpu.cyc = s.cpu.cyc := rfl
@[simp] theorem setC_miaSeen (s : State) (b : Bool) : (s.setC b).cpu.miaSeen = s.cpu.miaSeen := rfl
@[simp] theorem setC_ppu (s : State) (b : Bool) : (s.setC b).ppu = s.ppu := rfl
@[simp] theorem setC_ram (s : State) (b : Bool) : (s.setC b).ram = s.ram := rfl
@[simp] theorem setC_cart (s : State) (b : Bool) : (s.setC b).cart = s.cart := rfl
@[simp] theorem setC_tick (s : State) (b : Bool) : (s.setC b).tick = s.tick := rfl
@[simp] theorem setC_wait (s : State) (b : Bool) : (s.setC b).wait = s.wait := rfl
@[simp] theorem setC_flagC (s : State) (b : Bool) : (s.setC b).flagC = b := by simp [State.flagC]
@[simp] theorem setC_flagZ (s : State) (b : Bool) : (s.setC b).flagZ = s.flagZ := by simp [State.flagZ]
@[simp] theorem setC_flagI (s : State) (b : Bool) : (s.setC b).flagI = s.flagI := by simp [State.flagI]
@[simp] theorem setC_flagD (s : State) (b : Bool) : (s.setC b).flagD = s.flagD := by simp [State.flagD]
@[simp] theorem setC_flagB (s : State) (b : Bool) : (s.setC b).flagB = s.flagB := by simp [State.flagB]
@[simp] theorem setC_flagU (s : State) (b : Bool) : (s.setC b).flagU = s.flagU := by simp [State.flagU]
@[simp] theorem setC_flagV (s : State) (b : Bool) : (s.setC b).flagV = s.flagV := by simp [State.flagV]
@[simp] theorem setC_flagN (s : State) (b : Bool) : (s.setC b).flagN = s.flagN := by simp [State.flagN]

/-! ## `setZ` -/

@[simp] theorem setZ_a (s : State) (b : Bool) : (s.setZ b).cpu.a = s.cpu.a := rfl
@[simp] theorem setZ_x (s : State) (b : Bool) : (s.setZ b).cpu.x = s.cpu.x := rfl
@[simp] theorem setZ_y (s : State) (b : Bool) : (s.setZ b).cpu.y = s.cpu.y := rfl
@[simp] theorem setZ_sp (s : State) (b : Bool) : (s.setZ b).cpu.sp = s.cpu.sp := rfl
@[simp] theorem setZ_pc (s : State) (b : Bool) : (s.setZ b).cpu.pc = s.cpu.pc := rfl
@[simp] theorem setZ_p (s : State) (b : Bool) : (s.setZ b).cpu.p = setBit s.cpu.p 1 b := rfl
@[simp] theorem setZ_cyc (s : State) (b : Bool) : (s.setZ b).cpu.cyc = s.cpu.cyc := rfl
@[simp] theorem setZ_miaSeen (s : State) (b : Bool) : (s.setZ b).cpu.miaSeen = s.cpu.miaSeen := rfl
@[simp] theorem setZ_ppu (s : State) (b : Bool) : (s.setZ b).ppu = s.ppu := rfl
@[simp] theorem setZ_ram (s : State) (b : Bool) : (s.setZ b).ram = s.ram := rfl
@[simp] theorem setZ_cart (s : State) (b : Bool) : (s.setZ b).cart = s.cart := rfl
@[simp] theorem setZ_tick (s : State) (b : Bool) : (s.setZ b).tick = s.tick := rfl
@[simp] theorem setZ_wait (s : State) (b : Bool) : (s.setZ b).wait = s.wait := rfl
@[simp] theorem setZ_flagC (s : State) (b : Bool) : (s.setZ b).flagC = s.flagC := by simp [State.flagC]
@[simp] theorem setZ_flagZ (s : State) (b : Bool) : (s.setZ b).flagZ = b := by simp [State.flagZ]
@[simp] theorem setZ_flagI (s : State) (b : Bool) : (s.setZ b).flagI = s.flagI := by simp [State.flagI]
@[simp] theorem setZ_flagD (s : State) (b : Bool) : (s.setZ b).flagD = s.flagD := by simp [State.flagD]
@[simp] theorem setZ_flagB (s : State) (b : Bool) : (s.setZ b).flagB = s.flagB := by simp [State.flagB]
@[simp] theorem setZ_flagU (s : State) (b : Bool) : (s.setZ b).flagU = s.flagU := by simp [State.flagU]
@[simp] theorem setZ_flagV (s : State) (b : Bool) : (s.setZ b).flagV = s.flagV := by simp [State.flagV]
@[simp] theorem setZ_flagN (s : State) (b : Bool) : (s.setZ b).flagN = s.flagN := by simp [State.flagN]

/-! ## `setI` -/

@[simp] theorem setI_a (s : State) (b : Bool) : (s.setI b).cpu.a = s.cpu.a := rfl
@[simp] theorem setI_x (s : State) (b : Bool) : (s.setI b).cpu.x = s.cpu.x := rfl
@[simp] theorem setI_y (s : State) (b : Bool) : (s.setI b).cpu.y = s.cpu.y := rfl
@[simp] theorem setI_sp (s : State) (b : Bool) : (s.setI b).cpu.sp = s.cpu.sp := rfl
@[simp] theorem setI_pc (s : State) (b : Bool) : (s.setI b).cpu.pc = s.cpu.pc := rfl
@[simp] theorem setI_p (s : State) (b : Bool) : (s.setI b).cpu.p = setBit s.cpu.p 2 b := rfl
@[simp] theorem setI_cyc (s : State) (b : Bool) : (s.setI b).cpu.cyc = s.cpu.cyc := rfl
@[simp] theorem setI_miaSeen (s : State) (b : Bool) : (s.setI b).cpu.miaSeen = s.cpu.miaSeen := rfl
@[simp] theorem setI_ppu (s : State) (b : Bool) : (s.setI b).ppu = s.ppu := rfl
@[simp] theorem setI_ram (s : State) (b : Bool) : (s.setI b).ram = s.ram := rfl
@[simp] theorem setI_cart (s : State) (b : Bool) : (s.setI b).cart = s.cart := rfl
@[simp] theorem setI_tick (s : State) (b : Bool) : (s.setI b).tick = s.tick := rfl
@[simp] theorem setI_wait (s : State) (b : Bool) : (s.setI b).wait = s.wait := rfl
@[simp] theorem setI_flagC (s : State) (b : Bool) : (s.setI b).flagC = s.flagC := by simp [State.flagC]
@[simp] theorem setI_flagZ (s : State) (b : Bool) : (s.setI b).flagZ = s.flagZ := by simp [State.flagZ]
@[simp] theorem setI_flagI (s : State) (b : Bool) : (s.setI b).flagI = b := by simp [State.flagI]
@[simp] theorem setI_flagD (s : State) (b : Bool) : (s.setI b).flagD = s.flagD := by simp [State.flagD]
@[simp] theorem setI_flagB (s : State) (b : Bool) : (s.setI b).flagB = s.flagB := by simp [State.flagB]
@[simp] theorem setI_flagU (s : State) (b : Bool) : (s.setI b).flagU = s.flagU := by simp [State.flagU]
@[simp] theorem setI_flagV (s : State) (b : Bool) : (s.setI b).flagV = s.flagV := by simp [State.flagV]
@[simp] theorem setI_flagN (s : State) (b : Bool) : (s.setI b).flagN = s.flagN := by simp [State.flagN]

/-! ## `setD` -/

@[simp] theorem setD_a (s : State) (b : Bool) : (s.setD b).cpu.a = s.cpu.a := rfl
@[simp] theorem setD_x (s : State) (b : Bool) : (s.setD b).cpu.x = s.cpu.x := rfl
@[simp] theorem setD_y (s : State) (b : Bool) : (s.setD b).cpu.y = s.cpu.y := rfl
@[simp] theorem setD_sp (s : State) (b : Bool) : (s.setD b).cpu.sp = s.cpu.sp := rfl
@[simp] theorem setD_pc (s : State) (b : Bool) : (s.setD b).cpu.pc = s.cpu.pc := rfl
@[simp] theorem setD_p (s : State) (b : Bool) : (s.setD b).cpu.p = setBit s.cpu.p 3 b := rfl
@[simp] theorem setD_cyc (s : State) (b : Bool) : (s.setD b).cpu.cyc = s.cpu.cyc := rfl
@[simp] theorem setD_miaSeen (s : State) (b : Bool) : (s.setD b).cpu.miaSeen = s.cpu.miaSeen := rfl
@[simp] theorem setD_ppu (s : State) (b : Bool) : (s.setD b).ppu = s.ppu := rfl
@[simp] theorem setD_ram (s : State) (b : Bool) : (s.setD b).ram = s.ram := rfl
@[simp] theorem setD_cart (s : State) (b : Bool) : (s.setD b).cart = s.cart := rfl
@[simp] theorem setD_tick (s : State) (b : Bool) : (s.setD b).tick = s.tick := rfl
@[simp] theorem setD_wait (s : State) (b : Bool) : (s.setD b).wait = s.wait := rfl
@[simp] theorem setD_flagC (s : State) (b : Bool) : (s.setD b).flagC = s.flagC := by simp [State.flagC]
@[simp] theorem setD_flagZ (s : State) (b : Bool) : (s.setD b).flagZ = s.flagZ := by simp [State.flagZ]
@[simp] theorem setD_flagI (s : State) (b : Bool) : (s.setD b).flagI = s.flagI := by simp [State.flagI]
@[simp] theorem setD_flagD (s : State) (b : Bool) : (s.setD b).flagD = b := by simp [State.flagD]
@[simp] theorem setD_flagB (s : State) (b : Bool) : (s.setD b).flagB = s.flagB := by simp [State.flagB]
@[simp] theorem setD_flagU (s : State) (b : Bool) : (s.setD b).flagU = s.flagU := by simp [State.flagU]
@[simp] theorem setD_flagV (s : State) (b : Bool) : (s.setD b).flagV = s.flagV := by simp [State.flagV]
@[simp] theorem setD_flagN (s : State) (b : Bool) : (s.setD b).flagN = s.flagN := by simp [State.flagN]

/-! ## `setV` -/

@[simp] theorem setV_a (s : State) (b : Bool) : (s.setV b).cpu.a = s.cpu.a := rfl
@[simp] theorem setV_x (s : State) (b : Bool) : (s.setV b).cpu.x = s.cpu.x := rfl
@[simp] theorem setV_y (s : State) (b : Bool) : (s.setV b).cpu.y = s.cpu.y := rfl
@[simp] theorem setV_sp (s : State) (b : Bool) : (s.setV b).cpu.sp = s.cpu.sp := rfl
@[simp] theorem setV_pc (s : State) (b : Bool) : (s.setV b).cpu.pc = s.cpu.pc := rfl
@[simp] theorem setV_p (s : State) (b : Bool) : (s.setV b).cpu.p = setBit s.cpu.p 6 b := rfl
@[simp] theorem setV_cyc (s : State) (b : Bool) : (s.setV b).cpu.cyc = s.cpu.cyc := rfl
@[simp] theorem setV_miaSeen (s : State) (b : Bool) : (s.setV b).cpu.miaSeen = s.cpu.miaSeen := rfl
@[simp] theorem setV_ppu (s : State) (b : Bool) : (s.setV b).ppu = s.ppu := rfl
@[simp] theorem setV_ram (s : State) (b : Bool) : (s.setV b).ram = s.ram := rfl
@[simp] theorem setV_cart (s : State) (b : Bool) : (s.setV b).cart = s.cart := rfl
@[simp] theorem setV_tick (s : State) (b : Bool) : (s.setV b).tick = s.tick := rfl
@[simp] theorem setV_wait (s : State) (b : Bool) : (s.setV b).wait = s.wait := rfl
@[simp] theorem setV_flagC (s : State) (b : Bool) : (s.setV b).flagC = s.flagC := by simp [State.flagC]
@[simp] theorem setV_flagZ (s : State) (b : Bool) : (s.setV b).flagZ = s.flagZ := by simp [State.flagZ]
@[simp] theorem setV_flagI (s : State) (b : Bool) : (s.setV b).flagI = s.flagI := by simp [State.flagI]
@[simp] theorem setV_flagD (s : State) (b : Bool) : (s.setV b).flagD = s.flagD := by simp [State.flagD]
@[simp] theorem setV_flagB (s : State) (b : Bool) : (s.setV b).flagB = s.flagB := by simp [State.flagB]
@[simp] theorem setV_flagU (s : State) (b : Bool) : (s.setV b).flagU = s.flagU := by simp [State.flagU]
@[simp] theorem setV_flagV (s : State) (b : Bool) : (s.setV b).flagV = b := by simp [State.flagV]
@[simp] theorem setV_flagN (s : State) (b : Bool) : (s.setV b).flagN = s.flagN := by simp [State.flagN]

/-! ## `setN` -/

@[simp] theorem setN_a (s : State) (b : Bool) : (s.setN b).cpu.a = s.cpu.a := rfl
@[simp] theorem setN_x (s : State) (b : Bool) : (s.setN b).cpu.x = s.cpu.x := rfl
@[simp] theorem setN_y (s : State) (b : Bool) : (s.setN b).cpu.y = s.cpu.y := rfl
@[simp] theorem setN_sp (s : State) (b : Bool) : (s.setN b).cpu.sp = s.cpu.sp := rfl
@[simp] theorem setN_pc (s : State) (b : Bool) : (s.setN b).cpu.pc = s.cpu.pc := rfl
@[simp] theorem setN_p (s : State) (b : Bool) : (s.setN b).cpu.p = setBit s.cpu.p 7 b := rfl
@[simp] theorem setN_cyc (s : State) (b : Bool) : (s.setN b).cpu.cyc = s.cpu.cyc := rfl
@[simp] theorem setN_miaSeen (s : State) (b : Bool) : (s.setN b).cpu.miaSeen = s.cpu.miaSeen := rfl
@[simp] theorem setN_ppu (s : State) (b : Bool) : (s.setN b).ppu = s.ppu := rfl
@[simp] theorem setN_ram (s : State) (b : Bool) : (s.setN b).ram = s.ram := rfl
@[simp] theorem setN_cart (s : State) (b : Bool) : (s.setN b).cart = s.cart := rfl
@[simp] theorem setN_tick (s : State) (b : Bool) : (s.setN b).tick = s.tick := rfl
@[simp] theorem setN_wait (s : State) (b : Bool) : (s.setN b).wait = s.wait := rfl
@[simp] theorem setN_flagC (s : State) (b : Bool) : (s.setN b).flagC = s.flagC := by simp [State.flagC]
@[simp] theorem setN_flagZ (s : State) (b : Bool) : (s.setN b).flagZ = s.flagZ := by simp [State.flagZ]
@[simp] theorem setN_flagI (s : State) (b : Bool) : (s.setN b).flagI = s.flagI := by simp [State.flagI]
@[simp] theorem setN_flagD (s : State) (b : Bool) : (s.setN b).flagD = s.flagD := by simp [State.flagD]
@[simp] theorem setN_flagB (s : State) (b : Bool) : (s.setN b).flagB = s.flagB := by simp [State.flagB]
@[simp] theorem setN_flagU (s : State) (b : Bool) : (s.setN b).flagU = s.flagU := by simp [State.flagU]
@[simp] theorem setN_flagV (s : State) (b : Bool) : (s.setN b).flagV = s.flagV := by simp [State.flagV]
@[simp] theorem setN_flagN (s : State) (b : Bool) : (s.setN b).flagN = b := by simp [State.flagN]

/-! ## The register updates keep the flags -/

@[simp] theorem setA_flagC (s : State) (v : Byte) : (s.setA v).flagC = s.flagC := rfl
@[simp] theorem setA_flagZ (s : State) (v : Byte) : (s.setA v).flagZ = s.flagZ := rfl
@[simp] theorem setA_flagI (s : State) (v : Byte) : (s.setA v).flagI = s.flagI := rfl
@[simp] theorem setA_flagD (s : State) (v : Byte) : (s.setA v).flagD = s.flagD := rfl
@[simp] theorem setA_flagB (s : State) (v : Byte) : (s.setA v).flagB = s.flagB := rfl
@[simp] theorem setA_flagU (s : State) (v : Byte) : (s.setA v).flagU = s.flagU := rfl
@[simp] theorem setA_flagV (s : State) (v : Byte) : (s.setA v).flagV = s.flagV := rfl
@[simp] theorem setA_flagN (s : State) (v : Byte) : (s.setA v).flagN = s.flagN := rfl
@[simp] theorem setX_flagC (s : State) (v : Byte) : (s.setX v).flagC = s.flagC := rfl
@[simp] theorem setX_flagZ (s : State) (v : Byte) : (s.setX v).flagZ = s.flagZ := rfl
@[simp] theorem setX_flagI (s : State) (v : Byte) : (s.setX v).flagI = s.flagI := rfl
@[simp] theorem setX_flagD (s : State) (v : Byte) : (s.setX v).flagD = s.flagD := rfl
@[simp] theorem setX_flagB (s : State) (v : Byte) : (s.setX v).flagB = s.flagB := rfl
@[simp] theorem setX_flagU (s : State) (v : Byte) : (s.setX v).flagU = s.flagU := rfl
@[simp] theorem setX_flagV (s : State) (v : Byte) : (s.setX v).flagV = s.flagV := rfl
@[simp] theorem setX_flagN (s : State) (v : Byte) : (s.setX v).flagN = s.flagN := rfl
@[simp] theorem setY_flagC (s : State) (v : Byte) : (s.setY v).flagC = s.flagC := rfl
@[simp] theorem setY_flagZ (s : State) (v : Byte) : (s.setY v).flagZ = s.flagZ := rfl
@[simp] theorem setY_flagI (s : State) (v : Byte) : (s.setY v).flagI = s.flagI := rfl
@[simp] theorem setY_flagD (s : State) (v : Byte) : (s.setY v).flagD = s.flagD := rfl
@[simp] theorem setY_flagB (s : State) (v : Byte) : (s.setY v).flagB = s.flagB := rfl
@[simp] theorem setY_flagU (s : State) (v : Byte) : (s.setY v).flagU = s.flagU := rfl
@[simp] theorem setY_flagV (s : State) (v : Byte) : (s.setY v).flagV = s.flagV := rfl
@[simp] theorem setY_flagN (s : State) (v : Byte) : (s.setY v).flagN = s.flagN := rfl
@[simp] theorem setSp_flagC (s : State) (v : Byte) : (s.setSp v).flagC = s.flagC := rfl
@[simp] theorem setSp_flagZ (s : State) (v : Byte) : (s.setSp v).flagZ = s.flagZ := rfl
@[simp] theorem setSp_flagI (s : State) (v : Byte) : (s.setSp v).flagI = s.flagI := rfl
@[simp] theorem setSp_flagD (s : State) (v : Byte) : (s.setSp v).flagD = s.flagD := rfl
@[simp] theorem setSp_flagB (s : State) (v : Byte) : (s.setSp v).flagB = s.flagB := rfl
@[simp] theorem setSp_flagU (s : State) (v : Byte) : (s.setSp v).flagU = s.flagU := rfl
@[simp] theorem setSp_flagV (s : State) (v : Byte) : (s.setSp v).flagV = s.flagV := rfl
@[simp] theorem setSp_flagN (s : State) (v : Byte) : (s.setSp v).flagN = s.flagN := rfl
@[simp] theorem setPc_flagC (s : State) (v : Word) : (s.setPc v).flagC = s.flagC := rfl
@[simp] theorem setPc_flagZ (s : State) (v : Word) : (s.setPc v).flagZ = s.flagZ := rfl
@[simp] theorem setPc_flagI (s : State) (v : Word) : (s.setPc v).flagI = s.flagI := rfl
@[simp] theorem setPc_flagD (s : State) (v : Word) : (s.setPc v).flagD = s.flagD := rfl
@[simp] theorem setPc_flagB (s : State) (v : Word) : (s.setPc v).flagB = s.flagB := rfl
@[simp] theorem setPc_flagU (s : State) (v : Word) : (s.setPc v).flagU = s.flagU := rfl
@[simp] theorem setPc_flagV (s : State) (v : Word) : (s.setPc v).flagV = s.flagV := rfl
@[simp] theorem setPc_flagN (s : State) (v : Word) : (s.setPc v).flagN = s.flagN := rfl
@[simp] theorem addCyc_flagC (s : State) (n : Nat) : (s.addCyc n).flagC = s.flagC := rfl
@[simp] theorem addCyc_flagZ (s : State) (n : Nat) : (s.addCyc n).flagZ = s.flagZ := rfl
@[simp] theorem addCyc_flagI (s : State) (n : Nat) : (s.addCyc n).flagI = s.flagI := rfl
@[simp] theorem addCyc_flagD (s : State) (n : Nat) : (s.addCyc n).flagD = s.flagD := rfl
@[simp] theorem addCyc_flagB (s : State) (n : Nat) : (s.addCyc n).flagB = s.flagB := rfl
@[simp] theorem addCyc_flagU (s : State) (n : Nat) : (s.addCyc n).flagU = s.flagU := rfl
@[simp] theorem addCyc_flagV (s : State) (n : Nat) : (s.addCyc n).flagV = s.flagV := rfl
@[simp] theorem addCyc_flagN (s : State) (n : Nat) : (s.addCyc n).flagN = s.flagN := rfl
@[simp] theorem markMia_flagC (s : State) : s.markMia.flagC = s.flagC := rfl
@[simp] theorem markMia_flagZ (s : State) : s.markMia.flagZ = s.flagZ := rfl
@[simp] theorem markMia_flagI (s : State) : s.markMia.flagI = s.flagI := rfl
@[simp] theorem markMia_flagD (s : State) : s.markMia.flagD = s.flagD := rfl
@[simp] theorem markMia_flagB (s : State) : s.markMia.flagB = s.flagB := rfl
@[simp] theorem markMia_flagU (s : State) : s.markMia.flagU = s.flagU := rfl
@[simp] theorem markMia_flagV (s : State) : s.markMia.flagV = s.flagV := rfl
@[simp] theorem markMia_flagN (s : State) : s.markMia.flagN = s.flagN := rfl

/-- Break and Reserved after `SetZN` are as before. -/
theorem setZN_breakReserved (v : Byte) (s : State) : (setZN v s).cpu.p &&& 0x30 = s.cpu.p &&& 0x30 := by
  show setBit (setBit s.cpu.p 1 (v == 0)) 7 (bitOf v 7) &&& 0x30 = _
  rw [setBit_and_breakReserved _ 7 _ (by omega), setBit_and_breakReserved _ 1 _ (by omega)]

/-- Two status registers with the same eight flags are equal. -/
theorem status_ext (p q : Byte) (h : ∀ i < 8, bitOf p i = bitOf q i) : p = q :=
  BitVec.eq_of_getLsbD_eq fun i hi => h i hi

/-! ## `setZN`, the adder, the comparison, BIT -/

@[simp] theorem setZN_a (v : Byte) (s : State) : (setZN v s).cpu.a = s.cpu.a := rfl
@[simp] theorem setZN_x (v : Byte) (s : State) : (setZN v s).cpu.x = s.cpu.x := rfl
@[simp] theorem setZN_y (v : Byte) (s : State) : (setZN v s).cpu.y = s.cpu.y := rfl
@[simp] theorem setZN_sp (v : Byte) (s : State) : (setZN v s).cpu.sp = s.cpu.sp := rfl
@[simp] theorem setZN_pc (v : Byte) (s : State) : (setZN v s).cpu.pc = s.cpu.pc := rfl
@[simp] theorem setZN_cyc (v : Byte) (s : State) : (setZN v s).cpu.cyc = s.cpu.cyc := rfl
@[simp] theorem setZN_miaSeen (v : Byte) (s : State) : (setZN v s).cpu.miaSeen = s.cpu.miaSeen := rfl
@[simp] theorem setZN_ppu (v : Byte) (s : State) : (setZN v s).ppu = s.ppu := rfl
@[simp] theorem setZN_ram (v : Byte) (s : State) : (setZN v s).ram = s.ram := rfl
@[simp] theorem setZN_cart (v : Byte) (s : State) : (setZN v s).cart = s.cart := rfl
@[simp] theorem setZN_tick (v : Byte) (s : State) : (setZN v s).tick = s.tick := rfl
@[simp] theorem setZN_wait (v : Byte) (s : State) : (setZN v s).wait = s.wait := rfl
@[simp] theorem setZN_flagC (v : Byte) (s : State) : (setZN v s).flagC = s.flagC := by simp [setZN, State.flagC]
@[simp] theorem setZN_flagZ (v : Byte) (s : State) : (setZN v s).flagZ = (v == 0) := by simp [setZN, State.flagZ]
@[simp] theorem setZN_flagI (v : Byte) (s : State) : (setZN v s).flagI = s.flagI := by simp [setZN, State.flagI]
@[simp] theorem setZN_flagD (v : Byte) (s : State) : (setZN v s).flagD = s.flagD := by simp [setZN, State.flagD]
@[simp] theorem setZN_flagB (v : Byte) (s : State) : (setZN v s).flagB = s.flagB := by simp [setZN, State.flagB]
@[simp] theorem setZN_flagU (v : Byte) (s : State) : (setZN v s).flagU = s.flagU := by simp [setZN, State.flagU]
@[simp] theorem setZN_flagV (v : Byte) (s : State) : (setZN v s).flagV = s.flagV := by simp [setZN, State.flagV]
@[simp] theorem setZN_flagN (v : Byte) (s : State) : (setZN v s).flagN = bitOf v 7 := by simp [setZN, State.flagN]

@[simp] theorem compareBytes_a (r m : Byte) (s : State) : (compareBytes r m s).cpu.a = s.cpu.a := rfl
@[simp] theorem compareBytes_x (r m : Byte) (s : State) : (compareBytes r m s).cpu.x = s.cpu.x := rfl
@[simp] theorem compareBytes_y (r m : Byte) (s : State) : (compareBytes r m s).cpu.y = s.cpu.y := rfl
@[simp] theorem compareBytes_sp (r m : Byte) (s : State) : (compareBytes r m s).cpu.sp = s.cpu.sp := rfl
@[simp] theorem compareBytes_pc (r m : Byte) (s : State) : (compareBytes r m s).cpu.pc = s.cpu.pc := rfl
@[simp] theorem compareBytes_cyc (r m : Byte) (s : State) : (compareBytes r m s).cpu.cyc = s.cpu.cyc := rfl
@[simp] theorem compareBytes_miaSeen (r m : Byte) (s : State) : (compareBytes r m s).cpu.miaSeen = s.cpu.miaSeen := rfl
@[simp] theorem compareBytes_ppu (r m : Byte) (s : State) : (compareBytes r m s).ppu = s.ppu := rfl
@[simp] theorem compareBytes_ram (r m : Byte) (s : State) : (compareBytes r m s).ram = s.ram := rfl
@[simp] theorem compareBytes_cart (r m : Byte) (s : State) : (compareBytes r m s).cart = s.cart := rfl
@[simp] theorem compareBytes_tick (r m : Byte) (s : State) : (compareBytes r m s).tick = s.tick := rfl
@[simp] theorem compareBytes_wait (r m : Byte) (s : State) : (compareBytes r m s).wait = s.wait := rfl
@[simp] theorem compareBytes_flagC (r m : Byte) (s : State) : (compareBytes r m s).flagC = decide (m.toNat ≤ r.toNat) := by simp [compareBytes]
@[simp] theorem compareBytes_flagZ (r m : Byte) (s : State) : (compareBytes r m s).flagZ = (r - m == 0) := by simp [compareBytes]
@[simp] theorem compareBytes_flagI (r m : Byte) (s : State) : (compareBytes r m s).flagI = s.flagI := by simp [compareBytes]
@[simp] theorem compareBytes_flagD (r m : Byte) (s : State) : (compareBytes r m s).flagD = s.flagD := by simp [compareBytes]
@[simp] theorem compareBytes_flagB (r m : Byte) (s : State) : (compareBytes r m s).flagB = s.flagB := by simp [compareBytes]
@[simp] theorem compareBytes_flagU (r m : Byte) (s : State) : (compareBytes r m s).flagU = s.flagU := by simp [compareBytes]
@[simp] theorem compareBytes_flagV (r m : Byte) (s : State) : (compareBytes r m s).flagV = s.flagV := by simp [compareBytes]
@[simp] theorem compareBytes_flagN (r m : Byte) (s : State) : (compareBytes r m s).flagN = bitOf (r - m) 7 := by simp [compareBytes]

@[simp] theorem bitTest_a (m : Byte) (s : State) : (bitTest m s).cpu.a = s.cpu.a := rfl
@[simp] theorem bitTest_x (m : Byte) (s : State) : (bitTest m s).cpu.x = s.cpu.x := rfl
@[simp] theorem bitTest_y (m : Byte) (s : State) : (bitTest m s).cpu.y = s.cpu.y := rfl
@[simp] theorem bitTest_sp (m : Byte) (s : State) : (bitTest m s).cpu.sp = s.cpu.sp := rfl
@[simp] theorem bitTest_pc (m : Byte) (s : State) : (bitTest m s).cpu.pc = s.cpu.pc := rfl
@[simp] theorem bitTest_cyc (m : Byte) (s : State) : (bitTest m s).cpu.cyc = s.cpu.cyc := rfl
@[simp] theorem bitTest_miaSeen (m : Byte) (s : State) : (bitTest m s).cpu.miaSeen = s.cpu.miaSeen := rfl
@[simp] theorem bitTest_ppu (m : Byte) (s : State) : (bitTest m s).ppu = s.ppu := rfl
@[simp] theorem bitTest_ram (m : Byte) (s : State) : (bitTest m s).ram = s.ram := rfl
@[simp] theorem bitTest_cart (m : Byte) (s : State) : (bitTest m s).cart = s.cart := rfl
@[simp] theorem bitTest_tick (m : Byte) (s : State) : (bitTest m s).tick = s.tick := rfl
@[simp] theorem bitTest_wait (m : Byte) (s : State) : (bitTest m s).wait = s.wait := rfl
@[simp] theorem bitTest_flagC (m : Byte) (s : State) : (bitTest m s).flagC = s.flagC := by simp [bitTest, State.flagC]
@[simp] theorem bitTest_flagZ (m : Byte) (s : State) : (bitTest m s).flagZ = ((s.cpu.a &&& m) == 0) := by simp [bitTest, State.flagZ]
@[simp] theorem bitTest_flagI (m : Byte) (s : State) : (bitTest m s).flagI = s.flagI := by simp [bitTest, State.flagI]
@[simp] theorem bitTest_flagD (m : Byte) (s : State) : (bitTest m s).flagD = s.flagD := by simp [bitTest, State.flagD]
@[simp] theorem bitTest_flagB (m : Byte) (s : State) : (bitTest m s).flagB = s.flagB := by simp [bitTest, State.flagB]
@[simp] theorem bitTest_flagU (m : Byte) (s : State) : (bitTest m s).flagU = s.flagU := by simp [bitTest, State.flagU]
@[simp] theorem bitTest_flagV (m : Byte) (s : State) : (bitTest m s).flagV = bitOf m 6 := by simp [bitTest, State.flagV]
@[simp] theorem bitTest_flagN (m : Byte) (s : State) : (bitTest m s).flagN = bitOf m 7 := by simp [bitTest, State.flagN]

@[simp] theorem addWithCarry_x (m : Byte) (s : State) : (addWithCarry m s).cpu.x = s.cpu.x := rfl
@[simp] theorem addWithCarry_y (m : Byte) (s : State) : (addWithCarry m s).cpu.y = s.cpu.y := rfl
@[simp] theorem addWithCarry_sp (m : Byte) (s : State) : (addWithCarry m s).cpu.sp = s.cpu.sp := rfl
@[simp] theorem addWithCarry_pc (m : Byte) (s : State) : (addWithCarry m s).cpu.pc = s.cpu.pc := rfl
@[simp] theorem addWithCarry_cyc (m : Byte) (s : State) : (addWithCarry m s).cpu.cyc = s.cpu.cyc := rfl
@[simp] theorem addWithCarry_miaSeen (m : Byte) (s : State) : (addWithCarry m s).cpu.miaSeen = s.cpu.miaSeen := rfl
@[simp] theorem addWithCarry_ppu (m : Byte) (s : State) : (addWithCarry m s).ppu = s.ppu := rfl
@[simp] theorem addWithCarry_ram (m : Byte) (s : State) : (addWithCarry m s).ram = s.ram := rfl
@[simp] theorem addWithCarry_cart (m : Byte) (s : State) : (addWithCarry m s).cart = s.cart := rfl
@[simp] theorem addWithCarry_tick (m : Byte) (s : State) : (addWithCarry m s).tick = s.tick := rfl
@[simp] theorem addWithCarry_wait (m : Byte) (s : State) : (addWithCarry m s).wait = s.wait := rfl
@[simp] theorem addWithCarry_flagC (m : Byte) (s : State) : (addWithCarry m s).flagC = adcCarry s.cpu.a m s.flagC := by simp [addWithCarry]
@[simp] theorem addWithCarry_flagZ (m : Byte) (s : State) : (addWithCarry m s).flagZ = (adcResult s.cpu.a m s.flagC == 0) := by simp [addWithCarry]
@[simp] theorem addWithCarry_flagI (m : Byte) (s : State) : (addWithCarry m s).flagI = s.flagI := by simp [addWithCarry]
@[simp] theorem addWithCarry_flagD (m : Byte) (s : State) : (addWithCarry m s).flagD = s.flagD := by simp [addWithCarry]
@[simp] theorem addWithCarry_flagB (m : Byte) (s : State) : (addWithCarry m s).flagB = s.flagB := by simp [addWithCarry]
@[simp] theorem addWithCarry_flagU (m : Byte) (s : State) : (addWithCarry m s).flagU = s.flagU := by simp [addWithCarry]
@[simp] theorem addWithCarry_flagV (m : Byte) (s : State) : (addWithCarry m s).flagV = adcOverflow s.cpu.a m s.flagC := by simp [addWithCarry]
@[simp] theorem addWithCarry_flagN (m : Byte) (s : State) : (addWithCarry m s).flagN = bitOf (adcResult s.cpu.a m s.flagC) 7 := by simp [addWithCarry]
@[simp] theorem addWithCarry_a (m : Byte) (s : State) : (addWithCarry m s).cpu.a = adcResult s.cpu.a m s.flagC := rfl

end Sys2Proof.Machine
end

