-- ==== Sys2Proof/Laws/Ops.lean ====
section
/-! SUPPORT. What each shared operation can do, said once: the Mapper's calls, the PPU bus, the ports, the CPU bus, fetch,
stack; and that each of them keeps the memories' form. -/

namespace Sys2Proof.Machine

/-! ## The Mapper -/

/-- Mapper0 claims no CPU read below 0x6000. -/
theorem cpuReadMap_low {m : Mapper} {a : Word} (h : a.toNat < 0x6000) : cpuReadMap m a = none := by
  cases m
  simp only [cpuReadMap]
  rw [if_neg (by omega), if_neg (by omega), if_neg (by omega)]

/-- Mapper0 claims no CPU write below 0x6000. -/
theorem cpuWriteMap_low {m : Mapper} {a : Word} {d : Byte} (h : a.toNat < 0x6000) : cpuWriteMap m a d = none := by
  cases m
  simp only [cpuWriteMap]
  rw [if_neg (by omega)]

/-- A claimed CPU write changes nothing. -/
theorem cpuWriteMap_some {m m' : Mapper} {a : Word} {d : Byte} (h : cpuWriteMap m a d = some m') : m' = m := by
  cases m
  simp only [cpuWriteMap] at h
  split at h <;> simp_all

/-- A claimed PPU write stores into the first CHR bank. -/
theorem ppuWriteMap_some {m m' : Mapper} {a : Word} {d : Byte} (h : ppuWriteMap m a d = some m') :
    a.toNat ≤ 0x1FFF ∧ ∃ prg bank others, m = .mapper0 prg (bank :: others) ∧
      m' = .mapper0 prg (storeByte bank a.toNat d :: others) := by
  obtain ⟨prg, _ | ⟨bank, others⟩⟩ := m
  · simp [ppuWriteMap] at h
  · simp only [ppuWriteMap] at h
    split at h
    · next ha => exact ⟨ha, prg, bank, others, rfl, by simpa using h.symm⟩
    · cases h

/-! ## The PPU bus -/

/-- A write in the PPU space changes one memory of the PPU, or the cartridge's Mapper. -/
theorem ppuWrite_frame (cart : Option Cartridge) (u : Ppu) (a : Word) (d : Byte) :
    (ppuWrite cart u a d).2 =
      { u with
        nt0 := (ppuWrite cart u a d).2.nt0
        nt1 := (ppuWrite cart u a d).2.nt1
        pal := (ppuWrite cart u a d).2.pal
        ipat := (ppuWrite cart u a d).2.ipat } := by
  have key : ∀ (c : Option Cartridge) (b : Word), ppuInternalWrite c u b d =
      { u with
        nt0 := (ppuInternalWrite c u b d).nt0
        nt1 := (ppuInternalWrite c u b d).nt1
        pal := (ppuInternalWrite c u b d).pal
        ipat := (ppuInternalWrite c u b d).ipat } := by
    intro c b
    unfold ppuInternalWrite
    split
    · rfl
    · split
      · split <;> rfl
      · rfl
  unfold ppuWrite
  rcases cart with _ | c
  · exact key none _
  · dsimp only
    split
    · rfl
    · exact key (some c) _

/-- A write in the PPU space leaves the slot's emptiness, its mirroring mode, its mapper number and its PRG banks alone. -/
theorem ppuWrite_cart (cart : Option Cartridge) (u : Ppu) (a : Word) (d : Byte) :
    (ppuWrite cart u a d).1 = cart ∨
      ∃ c m, cart = some c ∧ (ppuWrite cart u a d).1 = some { c with mapper := m } ∧
        ppuWriteMap c.mapper (a &&& 0x3FFF) d = some m := by
  unfold ppuWrite
  rcases cart with _ | c
  · exact .inl rfl
  · dsimp only
    split
    · next m h => exact .inr ⟨c, m, rfl, rfl, h⟩
    · exact .inl rfl

/-! ## The ports -/

/-- What a port read can do to the PPU: nothing, what a read of STATUS does, or what a read of DATA does. -/
theorem portRead_cases (cart : Option Cartridge) (u : Ppu) (i : Port) :
    (portRead cart u i).2 = u ∨ (portRead cart u i).2 = { u with status := u.status &&& 0x7F, w := false } ∨
      ∃ b, (portRead cart u i).2 = { u with rdbuf := b, v := u.v + vramInc u } := by
  cases i with
  | status => exact .inr (.inl rfl)
  | data =>
    refine .inr (.inr ?_)
    simp only [portRead, readData]
    split <;> exact ⟨_, rfl⟩
  | _ => exact .inl rfl

/-- A port read changes no more than STATUS, the toggle, the read buffer and `v`. -/
theorem portRead_frame (cart : Option Cartridge) (u : Ppu) (i : Port) :
    (portRead cart u i).2 =
      { u with
        status := (portRead cart u i).2.status
        w := (portRead cart u i).2.w
        rdbuf := (portRead cart u i).2.rdbuf
        v := (portRead cart u i).2.v } := by
  rcases portRead_cases cart u i with h | h | ⟨b, h⟩ <;> rw [h]

/-- What a port write can do to the cartridge and the PPU: set port and scroll registers, or write in the PPU space. -/
theorem portWrite_cases (cart : Option Cartridge) (u : Ppu) (i : Port) (d : Byte) :
    (∃ ctrl mask oamAddr oamData v t fineX w, portWrite cart u i d =
      (cart, { u with
        ctrl := ctrl, mask := mask, oamAddr := oamAddr, oamData := oamData, v := v, t := t, fineX := fineX, w := w })) ∨
      (i = .data ∧ ∃ v, portWrite cart u i d =
        ((ppuWrite cart u (vramAddr u) d).1, { (ppuWrite cart u (vramAddr u) d).2 with v := v })) := by
  cases i with
  | data => exact .inr ⟨rfl, _, rfl⟩
  | scroll =>
    simp only [portWrite, writeScroll]
    split <;> exact .inl ⟨_, _, _, _, _, _, _, _, rfl⟩
  | addr =>
    simp only [portWrite, writeAddr]
    split <;> exact .inl ⟨_, _, _, _, _, _, _, _, rfl⟩
  | _ => exact .inl ⟨_, _, _, _, _, _, _, _, rfl⟩

/-! ## The CPU bus: reads -/

theorem cartRead_low {s : State} {a : Word} (h : a.toNat < 0x6000) :
    (s.cart.bind fun c => cpuReadMap c.mapper a) = none := by
  cases s.cart with
  | none => rfl
  | some c => exact cpuReadMap_low h

/-- A read of RAM. -/
theorem memRead_ram {s : State} {a : Word} (h : a.toNat ≤ 0x1FFF) :
    memRead a s = (byteAt s.ram (a &&& 0x07FF).toNat, s) := by
  unfold memRead
  rw [cartRead_low (by omega)]
  simp [h]

/-- A read of a port. -/
theorem memRead_port {s : State} {a : Word} (h : 0x2000 ≤ a.toNat) (h' : a.toNat ≤ 0x3FFF) :
    memRead a s = ((portRead s.cart s.ppu (portOf a)).1, { s with ppu := (portRead s.cart s.ppu (portOf a)).2 }) := by
  unfold memRead
  rw [cartRead_low (by omega)]
  simp only
  rw [if_neg (by omega), if_pos h']

/-- A read above the ports changes nothing. -/
theorem memRead_above {s : State} {a : Word} (h : 0x3FFF < a.toNat) : (memRead a s).2 = s := by
  unfold memRead
  generalize (s.cart.bind fun c => cpuReadMap c.mapper a) = hit
  cases hit with
  | some b => rfl
  | none =>
    dsimp only
    rw [if_neg (by omega), if_neg (by omega)]

/-- The three things a read can be. -/
theorem memRead_cases (a : Word) (s : State) :
    (a.toNat ≤ 0x1FFF ∧ memRead a s = (byteAt s.ram (a &&& 0x07FF).toNat, s)) ∨
      (0x2000 ≤ a.toNat ∧ a.toNat ≤ 0x3FFF ∧ ∃ i, i = portOf a ∧ memRead a s =
        ((portRead s.cart s.ppu i).1, { s with ppu := (portRead s.cart s.ppu i).2 })) ∨
      (0x3FFF < a.toNat ∧ (memRead a s).2 = s) := by
  rcases Nat.lt_or_ge a.toNat 0x2000 with h | h
  · exact .inl ⟨by omega, memRead_ram (by omega)⟩
  · rcases Nat.lt_or_ge 0x3FFF a.toNat with h' | h'
    · exact .inr (.inr ⟨h', memRead_above h'⟩)
    · exact .inr (.inl ⟨h, h', _, rfl, memRead_port h h'⟩)

/-- A read outside the ports changes nothing. -/
theorem memRead_snd {s : State} {a : Word} (h : a.toNat < 0x2000 ∨ 0x3FFF < a.toNat) : (memRead a s).2 = s := by
  rcases memRead_cases a s with ⟨-, e⟩ | ⟨h1, h2, -⟩ | ⟨-, e⟩
  · rw [e]
  · omega
  · exact e

/-- A read changes the PPU alone. -/
theorem memRead_frame (a : Word) (s : State) : (memRead a s).2 = { s with ppu := (memRead a s).2.ppu } := by
  rcases memRead_cases a s with ⟨-, e⟩ | ⟨-, -, i, -, e⟩ | ⟨-, e⟩ <;> rw [e]

@[simp] theorem memRead_cpu (a : Word) (s : State) : (memRead a s).2.cpu = s.cpu := by rw [memRead_frame]
@[simp] theorem memRead_ram_eq (a : Word) (s : State) : (memRead a s).2.ram = s.ram := by rw [memRead_frame]
@[simp] theorem memRead_cart (a : Word) (s : State) : (memRead a s).2.cart = s.cart := by rw [memRead_frame]
@[simp] theorem memRead_tick (a : Word) (s : State) : (memRead a s).2.tick = s.tick := by rw [memRead_frame]
@[simp] theorem memRead_wait (a : Word) (s : State) : (memRead a s).2.wait = s.wait := by rw [memRead_frame]

/-- What a read can do to the PPU. -/
theorem memRead_ppu_cases (a : Word) (s : State) :
    (memRead a s).2.ppu = s.ppu ∨ (memRead a s).2.ppu = { s.ppu with status := s.ppu.status &&& 0x7F, w := false } ∨
      ∃ b, (memRead a s).2.ppu = { s.ppu with rdbuf := b, v := s.ppu.v + vramInc s.ppu } := by
  rcases memRead_cases a s with ⟨-, e⟩ | ⟨-, -, i, -, e⟩ | ⟨-, e⟩ <;> rw [e]
  · exact .inl rfl
  · exact portRead_cases s.cart s.ppu i
  · exact .inl rfl

/-- A read changes no more of the PPU than STATUS, the toggle, the read buffer and `v`. -/
theorem memRead_ppu_frame (a : Word) (s : State) :
    (memRead a s).2.ppu =
      { s.ppu with
        status := (memRead a s).2.ppu.status
        w := (memRead a s).2.ppu.w
        rdbuf := (memRead a s).2.ppu.rdbuf
        v := (memRead a s).2.ppu.v } := by
  rcases memRead_ppu_cases a s with h | h | ⟨b, h⟩ <;> rw [h]

/-- A read above the ports does not depend on RAM, PPU or registers. -/
theorem memRead_high_congr {s t : State} {a : Word} (h : 0x3FFF < a.toNat) (hc : t.cart = s.cart) :
    (memRead a t).1 = (memRead a s).1 := by
  have h1 : ¬ a.toNat ≤ 0x1FFF := by omega
  have h2 : ¬ a.toNat ≤ 0x3FFF := by omega
  unfold memRead
  rw [hc]
  generalize (s.cart.bind fun c => cpuReadMap c.mapper a) = hit
  cases hit with
  | some b => rfl
  | none => simp only [if_neg h1, if_neg h2]

/-- A read does not depend on the CPU registers and does not change them. -/
theorem memRead_withCpu (a : Word) (s : State) (c : Cpu) :
    memRead a { s with cpu := c } = ((memRead a s).1, { (memRead a s).2 with cpu := c }) := by
  rcases memRead_cases a s with ⟨h, e⟩ | ⟨h, h', i, hi, e⟩ | ⟨h, e⟩
  · rw [e, memRead_ram h]
  · rw [e, memRead_port h h', ← hi]
  · exact Prod.ext (memRead_high_congr h rfl) (by rw [memRead_above h, e])

/-! ## The CPU bus: writes -/

/-- A write of RAM. -/
theorem memWrite_ram {s : State} {a : Word} {d : Byte} (h : a.toNat ≤ 0x1FFF) :
    memWrite a d s = { s with ram := storeByte s.ram (a &&& 0x07FF).toNat d } := by
  obtain ⟨cpu, ppu, ram, cart, tick, wait⟩ := s
  rcases cart with _ | c
  · simp [memWrite, memWriteInternal, h]
  · simp only [memWrite]
    rw [cpuWriteMap_low (by omega)]
    simp [memWriteInternal, h]

/-- A write of a port. -/
theorem memWrite_port {s : State} {a : Word} {d : Byte} (h : 0x2000 ≤ a.toNat) (h' : a.toNat ≤ 0x3FFF) :
    memWrite a d s =
      { s with cart := (portWrite s.cart s.ppu (portOf a) d).1, ppu := (portWrite s.cart s.ppu (portOf a) d).2 } := by
  obtain ⟨cpu, ppu, ram, cart, tick, wait⟩ := s
  have hi : ¬ a.toNat ≤ 0x1FFF := by omega
  rcases cart with _ | c
  · simp [memWrite, memWriteInternal, hi, h']
  · simp only [memWrite]
    rw [cpuWriteMap_low (by omega)]
    simp [memWriteInternal, hi, h']

/-- A write above the ports changes nothing. -/
theorem memWrite_high {s : State} {a : Word} {d : Byte} (h : 0x3FFF < a.toNat) : memWrite a d s = s := by
  obtain ⟨cpu, ppu, ram, cart, tick, wait⟩ := s
  have h1 : ¬ a.toNat ≤ 0x1FFF := by omega
  have h2 : ¬ a.toNat ≤ 0x3FFF := by omega
  rcases cart with _ | c
  · simp [memWrite, memWriteInternal, h1, h2]
  · simp only [memWrite]
    split
    · next m hm => rw [cpuWriteMap_some hm]
    · simp [memWriteInternal, h1, h2]

/-- The three things a write can be. -/
theorem memWrite_cases (a : Word) (d : Byte) (s : State) :
    (a.toNat ≤ 0x1FFF ∧ memWrite a d s = { s with ram := storeByte s.ram (a &&& 0x07FF).toNat d }) ∨
      (0x2000 ≤ a.toNat ∧ a.toNat ≤ 0x3FFF ∧ ∃ i, i = portOf a ∧ memWrite a d s =
        { s with cart := (portWrite s.cart s.ppu i d).1, ppu := (portWrite s.cart s.ppu i d).2 }) ∨
      (0x3FFF < a.toNat ∧ memWrite a d s = s) := by
  rcases Nat.lt_or_ge a.toNat 0x2000 with h | h
  · exact .inl ⟨by omega, memWrite_ram (by omega)⟩
  · rcases Nat.lt_or_ge 0x3FFF a.toNat with h' | h'
    · exact .inr (.inr ⟨h', memWrite_high h'⟩)
    · exact .inr (.inl ⟨h, h', _, rfl, memWrite_port h h'⟩)

@[simp] theorem memWrite_cpu (a : Word) (d : Byte) (s : State) : (memWrite a d s).cpu = s.cpu := by
  rcases memWrite_cases a d s with ⟨-, h⟩ | ⟨-, -, i, -, h⟩ | ⟨-, h⟩ <;> rw [h]
@[simp] theorem memWrite_tick (a : Word) (d : Byte) (s : State) : (memWrite a d s).tick = s.tick := by
  rcases memWrite_cases a d s with ⟨-, h⟩ | ⟨-, -, i, -, h⟩ | ⟨-, h⟩ <;> rw [h]
@[simp] theorem memWrite_wait (a : Word) (d : Byte) (s : State) : (memWrite a d s).wait = s.wait := by
  rcases memWrite_cases a d s with ⟨-, h⟩ | ⟨-, -, i, -, h⟩ | ⟨-, h⟩ <;> rw [h]

/-- A write does not depend on the CPU registers and does not change them. -/
theorem memWrite_withCpu (a : Word) (d : Byte) (s : State) (c : Cpu) :
    memWrite a d { s with cpu := c } = { memWrite a d s with cpu := c } := by
  rcases memWrite_cases a d s with ⟨h, e⟩ | ⟨h, h', i, hi, e⟩ | ⟨h, e⟩ <;> rw [e]
  · rw [memWrite_ram h]
  · rw [memWrite_port h h', ← hi]
  · rw [memWrite_high h]

/-! ## The stack -/

theorem stackAddr_toNat (sp : Byte) : (stackAddr sp).toNat = 0x100 + sp.toNat := by
  revert sp; decide +kernel

theorem stackAddr_index (sp : Byte) : (stackAddr sp &&& 0x07FF).toNat = 0x100 + sp.toNat := by
  revert sp; decide +kernel

/-- A stack write goes to page 1 of RAM, whatever is attached. -/
theorem memWrite_stack (sp v : Byte) (s : State) :
    memWrite (stackAddr sp) v s = { s with ram := storeByte s.ram (0x100 + sp.toNat) v } := by
  rw [memWrite_ram (by rw [stackAddr_toNat]; omega), stackAddr_index]

/-- A stack read comes from page 1 of RAM, whatever is attached. -/
theorem memRead_stack (sp : Byte) (s : State) :
    memRead (stackAddr sp) s = (byteAt s.ram (0x100 + sp.toNat), s) := by
  rw [memRead_ram (by rw [stackAddr_toNat]; omega), stackAddr_index]

/-- What a push changes: one byte of RAM and the stack pointer. -/
theorem push_frame (v : Byte) (s : State) :
    push v s = { s with ram := (push v s).ram, cpu := { s.cpu with sp := (push v s).cpu.sp } } := by
  rw [push, memWrite_stack]; rfl

theorem push_ram (v : Byte) (s : State) : (push v s).ram = storeByte s.ram (0x100 + s.cpu.sp.toNat) v := by
  rw [push, memWrite_stack]; rfl

theorem push_sp (v : Byte) (s : State) : (push v s).cpu.sp = s.cpu.sp - 1 := rfl

/-- What a pop changes: the stack pointer. -/
theorem pop_frame (s : State) : (pop s).2 = s.setSp (s.cpu.sp + 1) := by
  simp only [pop, memRead_stack]

theorem pop_value (s : State) : (pop s).1 = byteAt s.ram (0x100 + (s.cpu.sp + 1).toNat) := by
  simp only [pop, memRead_stack]; rfl

/-! ## Page zero -/

theorem zext16_toNat (b : Byte) : (zext16 b).toNat = b.toNat := by revert b; decide +kernel

theorem zext16_index (b : Byte) : (zext16 b &&& 0x07FF).toNat = b.toNat := by revert b; decide +kernel

/-- A read of page zero comes from RAM, whatever is attached. -/
theorem memRead_zeroPage (b : Byte) (s : State) : memRead (zext16 b) s = (byteAt s.ram b.toNat, s) := by
  rw [memRead_ram (by rw [zext16_toNat]; omega), zext16_index]

/-- A pointer of page zero changes nothing. -/
theorem zeroPagePointer_eq (p : Byte) (s : State) :
    zeroPagePointer p s = (wordOf (byteAt s.ram (p + 1).toNat) (byteAt s.ram p.toNat), s) := by
  simp only [zeroPagePointer, memRead_zeroPage]

/-! ## Canonical forms -/

/-- A store inside a memory keeps its form and size. -/
theorem memoryOk_storeByte {size : Nat} {m : Memory} {a : Nat} (b : Byte) (ha : a < size)
    (h : memoryOk size m = true) : memoryOk size (storeByte m a b) = true := by
  simp only [memoryOk, Bool.and_eq_true] at h ⊢
  exact ⟨Memory.wf_storeByte m a b h.1, memoryWithin_storeByte b ha h.2⟩

/-- The index a RAM address names is one of RAM's. -/
theorem ramIndex_lt (a : Word) : (a &&& 0x07FF).toNat < 0x800 := by
  rw [BitVec.toNat_and]
  exact Nat.lt_of_le_of_lt Nat.and_le_right (by decide)

/-- The offset of a name-table address is one of the table's. -/
theorem tableIndex_lt (a : Word) : (a &&& 0x03FF).toNat < 0x400 := by
  rw [BitVec.toNat_and]
  exact Nat.lt_of_le_of_lt Nat.and_le_right (by decide)

theorem palIndex_mask (a : Word) : palIndex a = palIndex (a &&& 0x1F) := by
  unfold palIndex
  rw [BitVec.and_assoc, BitVec.and_self]

/-- A palette index is below 32 and never one of the four aliases. -/
theorem palIndex_ok (a : Word) : palIndex a < 0x20 ∧ isPaletteAlias (palIndex a) = false := by
  have h : (a &&& 0x1F).toNat < 0x20 := by
    rw [BitVec.toNat_and]
    exact Nat.lt_of_le_of_lt Nat.and_le_right (by decide)
  unfold palIndex
  dsimp only
  generalize (a &&& 0x1F).toNat = i at *
  revert i
  decide +kernel

/-- A palette write keeps the palette's form. -/
theorem paletteOk_storeByte {m : Memory} (a : Word) (b : Byte) (h : paletteOk m = true) :
    paletteOk (storeByte m (palIndex a) b) = true := by
  simp only [paletteOk, Bool.and_eq_true, List.all_eq_true] at h ⊢
  refine ⟨memoryOk_storeByte b (palIndex_ok a).1 h.1, fun c hc => ?_⟩
  rcases mem_storeByte hc with rfl | hc
  · simp [(palIndex_ok a).2]
  · exact h.2 c hc

/-- A write in the PPU space keeps the form of every memory it can reach. -/
theorem ppuWrite_ok {cart : Option Cartridge} {u : Ppu} (a : Word) (d : Byte) (hu : ppuMemoriesOk u = true)
    (hc : cartOk cart = true) :
    ppuMemoriesOk (ppuWrite cart u a d).2 = true ∧ cartOk (ppuWrite cart u a d).1 = true := by
  have key : ∀ (c : Option Cartridge) (b : Word), ppuMemoriesOk (ppuInternalWrite c u b d) = true := by
    intro c b
    simp only [ppuMemoriesOk, Bool.and_eq_true] at hu ⊢
    obtain ⟨⟨⟨⟨h0, h1⟩, hp⟩, hi⟩, hf⟩ := hu
    unfold ppuInternalWrite
    split
    · next hb => exact ⟨⟨⟨⟨h0, h1⟩, hp⟩, memoryOk_storeByte d (by omega) hi⟩, hf⟩
    · split
      · split
        · exact ⟨⟨⟨⟨h0, memoryOk_storeByte d (tableIndex_lt b) h1⟩, hp⟩, hi⟩, hf⟩
        · exact ⟨⟨⟨⟨memoryOk_storeByte d (tableIndex_lt b) h0, h1⟩, hp⟩, hi⟩, hf⟩
      · exact ⟨⟨⟨⟨h0, h1⟩, paletteOk_storeByte b d hp⟩, hi⟩, hf⟩
  unfold ppuWrite
  rcases cart with _ | c
  · exact ⟨key none _, rfl⟩
  · dsimp only
    split
    · next m hm =>
      refine ⟨hu, ?_⟩
      obtain ⟨ha, prg, bank, others, h1, h2⟩ := ppuWriteMap_some hm
      simp only [cartOk, Bool.and_eq_true] at hc ⊢
      refine ⟨hc.1, ?_⟩
      rw [h1] at hc
      rw [h2]
      simp only [mapperOk, Bool.and_eq_true, List.all_cons] at hc ⊢
      exact ⟨hc.2.1, memoryOk_storeByte d (by omega) hc.2.2.1, hc.2.2.2⟩
    · exact ⟨key (some c) _, hc⟩

/-- A port write keeps the form of every memory. -/
theorem portWrite_ok {cart : Option Cartridge} {u : Ppu} (i : Port) (d : Byte) (hu : ppuMemoriesOk u = true)
    (hc : cartOk cart = true) :
    ppuMemoriesOk (portWrite cart u i d).2 = true ∧ cartOk (portWrite cart u i d).1 = true := by
  rcases portWrite_cases cart u i d with ⟨_, _, _, _, _, _, _, _, h⟩ | ⟨-, v, h⟩ <;> rw [h]
  · exact ⟨hu, hc⟩
  · exact ppuWrite_ok (vramAddr u) d hu hc

/-- A CPU write keeps the form of every memory. -/
theorem memWrite_ok (a : Word) (d : Byte) {s : State} (hr : memoryOk 0x800 s.ram = true)
    (hu : ppuMemoriesOk s.ppu = true) (hc : cartOk s.cart = true) :
    memoryOk 0x800 (memWrite a d s).ram = true ∧ ppuMemoriesOk (memWrite a d s).ppu = true ∧
      cartOk (memWrite a d s).cart = true := by
  rcases memWrite_cases a d s with ⟨-, h⟩ | ⟨-, -, i, -, h⟩ | ⟨-, h⟩ <;> rw [h]
  · exact ⟨memoryOk_storeByte d (ramIndex_lt a) hr, hu, hc⟩
  · exact ⟨hr, portWrite_ok i d hu hc⟩
  · exact ⟨hr, hu, hc⟩

/-- A CPU read keeps the form of every memory. -/
theorem memRead_ok (a : Word) {s : State} (hu : ppuMemoriesOk s.ppu = true) :
    ppuMemoriesOk (memRead a s).2.ppu = true := by
  rw [memRead_ppu_frame]; exact hu

end Sys2Proof.Machine
end

