-- ==== Sys2Proof/Laws/Exec.lean ====
section
/-! SUPPORT. When a meaning answers a next state, what a fetch does, and the canonical form of the memories at reset: the
lemmas a proof about `exec` or `step` cites first. -/

namespace Sys2Proof.Machine

theorem baseCycles_of_opcode {i : Instr} {op : Byte} (h : i.opcode? = some op) :
    baseCycles i = some ((entry op).cycles.getD (Config.miaCycles op)) := by simp [baseCycles, h]

/-- A term that an opcode stands for has its base count. -/
theorem withCycles_of_opcode {i : Instr} {op : Byte} (body : State → State) (s : State) (h : i.opcode? = some op) :
    withCycles i body s = .next (body (s.addCyc ((entry op).cycles.getD (Config.miaCycles op)))) := by
  rw [withCycles, baseCycles_of_opcode h]

/-- A term that no opcode stands for is refused. -/
theorem withCycles_of_none {i : Instr} (body : State → State) (s : State) (h : i.opcode? = none) :
    withCycles i body s = .refused .illFormed := by
  simp [withCycles, baseCycles, h]

/-- Everything a meaning can do: run its body after its base count, or refuse a term without an opcode. -/
theorem withCycles_cases (i : Instr) (body : State → State) (s : State) :
    (∃ op, i.opcode? = some op ∧
      withCycles i body s = .next (body (s.addCyc ((entry op).cycles.getD (Config.miaCycles op))))) ∨
    (i.opcode? = none ∧ withCycles i body s = .refused .illFormed) := by
  cases h : i.opcode? with
  | none => exact .inr ⟨rfl, withCycles_of_none body s h⟩
  | some op => exact .inl ⟨op, rfl, withCycles_of_opcode body s h⟩

/-- What `withCycles` answers next is its body's state. -/
theorem withCycles_next {i : Instr} {body : State → State} {s t : State} (h : withCycles i body s = .next t) :
    ∃ n, baseCycles i = some n ∧ t = body (s.addCyc n) := by
  rw [withCycles] at h
  cases hn : baseCycles i with
  | none => rw [hn] at h; cases h
  | some n => rw [hn] at h; cases h; exact ⟨n, rfl, rfl⟩

/-- A fetch reads the byte at `PC` and moves `PC` past it. -/
theorem fetch_eq (s : State) : fetch s = ((memRead s.cpu.pc s).1, (memRead s.cpu.pc s).2.setPc (s.cpu.pc + 1)) := rfl

/-- The instruction fetched has an opcode, so its meaning never refuses. -/
theorem opcode_of_fetchInstr (s : State) : ∃ op, (fetchInstr s).1.opcode? = some op := by
  rw [fetchInstr]
  dsimp only
  split <;> exact ⟨_, opcode_of_decode _ _ _⟩

@[simp] theorem mapNext_next (f : State → State) (s : State) : mapNext f (.next s) = .next (f s) := rfl

/-- The memories of `State.reset` have their canonical form and size. -/
theorem reset_memories_wf :
    Memory.wf State.reset.ram = true ∧ Memory.wf State.reset.ppu.nt0 = true ∧ Memory.wf State.reset.ppu.nt1 = true ∧
    Memory.wf State.reset.ppu.pal = true ∧ Memory.wf State.reset.ppu.ipat = true ∧ Memory.wf State.reset.ppu.fb = true := by
  decide

end Sys2Proof.Machine
end

