-- ==== Sys2Proof/Laws/PerInstr.lean ====
section
/-! SUPPORT. One statement about every instruction as syntax, and its lemma for each constructor. -/

namespace Sys2Proof.Laws

/-- A well-formed instruction has an opcode, whose table entry has its kind and its mode. -/
def HasOpcode.Statement (i : Instr) : Prop :=
  i.WellFormed = true → ∃ op : Byte, i.opcode? = some op ∧ (entry op).kind = i.kind ∧ (entry op).mode = i.operand.mode

theorem hasOpcode (i : Instr) : HasOpcode.Statement i := fun h =>
  let ⟨op, hop⟩ := opcode_of_wellFormed h
  ⟨op, hop, entry_of_opcode hop⟩

theorem HasOpcode.lda (o : Operand) : HasOpcode.Statement (.lda o) := hasOpcode _
theorem HasOpcode.ldx (o : Operand) : HasOpcode.Statement (.ldx o) := hasOpcode _
theorem HasOpcode.ldy (o : Operand) : HasOpcode.Statement (.ldy o) := hasOpcode _
theorem HasOpcode.sta (o : Operand) : HasOpcode.Statement (.sta o) := hasOpcode _
theorem HasOpcode.stx (o : Operand) : HasOpcode.Statement (.stx o) := hasOpcode _
theorem HasOpcode.sty (o : Operand) : HasOpcode.Statement (.sty o) := hasOpcode _
theorem HasOpcode.tax : HasOpcode.Statement .tax := hasOpcode _
theorem HasOpcode.tay : HasOpcode.Statement .tay := hasOpcode _
theorem HasOpcode.txa : HasOpcode.Statement .txa := hasOpcode _
theorem HasOpcode.tya : HasOpcode.Statement .tya := hasOpcode _
theorem HasOpcode.tsx : HasOpcode.Statement .tsx := hasOpcode _
theorem HasOpcode.txs : HasOpcode.Statement .txs := hasOpcode _
theorem HasOpcode.adc (o : Operand) : HasOpcode.Statement (.adc o) := hasOpcode _
theorem HasOpcode.sbc (o : Operand) : HasOpcode.Statement (.sbc o) := hasOpcode _
theorem HasOpcode.and (o : Operand) : HasOpcode.Statement (.and o) := hasOpcode _
theorem HasOpcode.ora (o : Operand) : HasOpcode.Statement (.ora o) := hasOpcode _
theorem HasOpcode.eor (o : Operand) : HasOpcode.Statement (.eor o) := hasOpcode _
theorem HasOpcode.bit (o : Operand) : HasOpcode.Statement (.bit o) := hasOpcode _
theorem HasOpcode.cmp (o : Operand) : HasOpcode.Statement (.cmp o) := hasOpcode _
theorem HasOpcode.cpx (o : Operand) : HasOpcode.Statement (.cpx o) := hasOpcode _
theorem HasOpcode.cpy (o : Operand) : HasOpcode.Statement (.cpy o) := hasOpcode _
theorem HasOpcode.inc (o : Operand) : HasOpcode.Statement (.inc o) := hasOpcode _
theorem HasOpcode.dec (o : Operand) : HasOpcode.Statement (.dec o) := hasOpcode _
theorem HasOpcode.inx : HasOpcode.Statement .inx := hasOpcode _
theorem HasOpcode.iny : HasOpcode.Statement .iny := hasOpcode _
theorem HasOpcode.dex : HasOpcode.Statement .dex := hasOpcode _
theorem HasOpcode.dey : HasOpcode.Statement .dey := hasOpcode _
theorem HasOpcode.asl (o : Operand) : HasOpcode.Statement (.asl o) := hasOpcode _
theorem HasOpcode.lsr (o : Operand) : HasOpcode.Statement (.lsr o) := hasOpcode _
theorem HasOpcode.rol (o : Operand) : HasOpcode.Statement (.rol o) := hasOpcode _
theorem HasOpcode.ror (o : Operand) : HasOpcode.Statement (.ror o) := hasOpcode _
theorem HasOpcode.jmp (o : Operand) : HasOpcode.Statement (.jmp o) := hasOpcode _
theorem HasOpcode.jsr (o : Operand) : HasOpcode.Statement (.jsr o) := hasOpcode _
theorem HasOpcode.rts : HasOpcode.Statement .rts := hasOpcode _
theorem HasOpcode.bpl (o : Operand) : HasOpcode.Statement (.bpl o) := hasOpcode _
theorem HasOpcode.bmi (o : Operand) : HasOpcode.Statement (.bmi o) := hasOpcode _
theorem HasOpcode.bvc (o : Operand) : HasOpcode.Statement (.bvc o) := hasOpcode _
theorem HasOpcode.bvs (o : Operand) : HasOpcode.Statement (.bvs o) := hasOpcode _
theorem HasOpcode.bcc (o : Operand) : HasOpcode.Statement (.bcc o) := hasOpcode _
theorem HasOpcode.bcs (o : Operand) : HasOpcode.Statement (.bcs o) := hasOpcode _
theorem HasOpcode.bne (o : Operand) : HasOpcode.Statement (.bne o) := hasOpcode _
theorem HasOpcode.beq (o : Operand) : HasOpcode.Statement (.beq o) := hasOpcode _
theorem HasOpcode.pha : HasOpcode.Statement .pha := hasOpcode _
theorem HasOpcode.php : HasOpcode.Statement .php := hasOpcode _
theorem HasOpcode.pla : HasOpcode.Statement .pla := hasOpcode _
theorem HasOpcode.plp : HasOpcode.Statement .plp := hasOpcode _
theorem HasOpcode.clc : HasOpcode.Statement .clc := hasOpcode _
theorem HasOpcode.sec : HasOpcode.Statement .sec := hasOpcode _
theorem HasOpcode.cli : HasOpcode.Statement .cli := hasOpcode _
theorem HasOpcode.sei : HasOpcode.Statement .sei := hasOpcode _
theorem HasOpcode.cld : HasOpcode.Statement .cld := hasOpcode _
theorem HasOpcode.sed : HasOpcode.Statement .sed := hasOpcode _
theorem HasOpcode.clv : HasOpcode.Statement .clv := hasOpcode _
theorem HasOpcode.nop : HasOpcode.Statement .nop := hasOpcode _
theorem HasOpcode.rti : HasOpcode.Statement .rti := hasOpcode _
theorem HasOpcode.brk : HasOpcode.Statement .brk := hasOpcode _
theorem HasOpcode.mia (op : Byte) (o : Operand) : HasOpcode.Statement (.mia op o) := hasOpcode _

end Sys2Proof.Laws
end

