-- ==== Sys2Proof/Tests/Slice0.lean ====
section
/-! SUPPORT. Tests on fixed values and the witnesses of the statements' hypotheses. Expected values come from the spec: the
section of spec/95_test_vectors.md or the rule is named before each group. -/

namespace Sys2Proof.Tests

open Sys2Proof.Machine Sys2Proof.Claims

-- One proof after another: the many kernel evaluations of this file, all at once, would take a thread each.
set_option Elab.async false

/-! ## Start states and answers -/

/-- The registers of the common start state of 95_test_vectors.md section 2. -/
def c0 : Cpu := Cpu.reset 0x8000

/-- A PRG bank with the bytes at its start and the vectors of that start state. -/
def bank (bytes : List Byte) : Memory :=
  memoryOfBytes 0 bytes ++ [(0x3FFB, 0x90), (0x3FFD, 0x80), (0x3FFF, 0xA0)]

/-- A cartridge with the banks. -/
def slot (prg chr : List Memory) (m : Mirroring) : Option Cartridge :=
  some { mirroring := m, mapperId := 0, mapper := .mapper0 prg chr }

/-- That start state with the bytes at 0x8000. -/
def start (bytes : List Byte) (c : Cpu) (ram : Memory) : State :=
  { State.reset with cpu := c, ram := ram, cart := slot [bank bytes] [] .horizontal }

/-- The state of an answer that is a next state. -/
def next? (o : Out) : Option State :=
  match o with
  | .next t => some t
  | .fault _ => none
  | .refused _ => none

/-- One `CpuStep` on the bytes: the registers and RAM after it. -/
def ran (bytes : List Byte) (c : Cpu) (ram : Memory) : Option (Cpu × Memory) :=
  (next? (cpuStep (start bytes c ram))).map fun t => (t.cpu, t.ram)

/-- The answer is a refusal of an ill-formed term. -/
def refusedIllFormed (o : Out) : Bool :=
  match o with
  | .refused .illFormed => true
  | .refused (.notModelled _) => false
  | .next _ => false
  | .fault _ => false

/-! ## Decoding: words written out from 30_encoding.md R140, R145, R150, one or more for every instruction -/

theorem test_decode_loads_and_stores :
    decodeTableWord 16 0x10A9 = some (.lda (.imm 0x10)) ∧ decodeTableWord 16 0xF0B5 = some (.lda (.zpx 0xF0)) ∧
    decodeTableWord 24 0x0234AD = some (.lda (.abs 0x0234)) ∧ decodeTableWord 24 0x02FFB9 = some (.lda (.aby 0x02FF)) ∧
    decodeTableWord 16 0x20A1 = some (.lda (.izx 0x20)) ∧ decodeTableWord 16 0x10B1 = some (.lda (.izy 0x10)) ∧
    decodeTableWord 16 0xFFB6 = some (.ldx (.zpy 0xFF)) ∧ decodeTableWord 24 0x1234BC = some (.ldy (.abx 0x1234)) ∧
    decodeTableWord 16 0x1085 = some (.sta (.zp 0x10)) ∧ decodeTableWord 24 0x12348E = some (.stx (.abs 0x1234)) ∧
    decodeTableWord 16 0x1094 = some (.sty (.zpx 0x10)) := by decide +kernel

theorem test_decode_transfers :
    decodeTableWord 8 0xAA = some .tax ∧ decodeTableWord 8 0xA8 = some .tay ∧ decodeTableWord 8 0x8A = some .txa ∧
    decodeTableWord 8 0x98 = some .tya ∧ decodeTableWord 8 0xBA = some .tsx ∧ decodeTableWord 8 0x9A = some .txs := by
  decide +kernel

theorem test_decode_arithmetic :
    decodeTableWord 16 0x1069 = some (.adc (.imm 0x10)) ∧ decodeTableWord 24 0x1234FD = some (.sbc (.abx 0x1234)) ∧
    decodeTableWord 16 0x1031 = some (.and (.izy 0x10)) ∧ decodeTableWord 16 0x1001 = some (.ora (.izx 0x10)) ∧
    decodeTableWord 24 0x123459 = some (.eor (.aby 0x1234)) ∧ decodeTableWord 24 0x20022C = some (.bit (.abs 0x2002)) ∧
    decodeTableWord 16 0x10D5 = some (.cmp (.zpx 0x10)) ∧ decodeTableWord 16 0x10E0 = some (.cpx (.imm 0x10)) ∧
    decodeTableWord 24 0x1234CC = some (.cpy (.abs 0x1234)) ∧ decodeTableWord 24 0x1234FE = some (.inc (.abx 0x1234)) ∧
    decodeTableWord 16 0x10C6 = some (.dec (.zp 0x10)) ∧ decodeTableWord 8 0xE8 = some .inx ∧
    decodeTableWord 8 0xC8 = some .iny ∧ decodeTableWord 8 0xCA = some .dex ∧ decodeTableWord 8 0x88 = some .dey := by
  decide +kernel

theorem test_decode_shifts :
    decodeTableWord 8 0x0A = some (.asl .acc) ∧ decodeTableWord 16 0x1046 = some (.lsr (.zp 0x10)) ∧
    decodeTableWord 24 0x12342E = some (.rol (.abs 0x1234)) ∧ decodeTableWord 24 0x12347E = some (.ror (.abx 0x1234)) := by
  decide +kernel

theorem test_decode_control :
    decodeTableWord 24 0x80004C = some (.jmp (.abs 0x8000)) ∧ decodeTableWord 24 0x02FF6C = some (.jmp (.ind 0x02FF)) ∧
    decodeTableWord 24 0x900020 = some (.jsr (.abs 0x9000)) ∧ decodeTableWord 8 0x60 = some .rts ∧
    decodeTableWord 16 0x7F10 = some (.bpl (.rel 0x7F)) ∧ decodeTableWord 16 0x8030 = some (.bmi (.rel 0x80)) ∧
    decodeTableWord 16 0x0450 = some (.bvc (.rel 0x04)) ∧ decodeTableWord 16 0x0470 = some (.bvs (.rel 0x04)) ∧
    decodeTableWord 16 0x0490 = some (.bcc (.rel 0x04)) ∧ decodeTableWord 16 0x04B0 = some (.bcs (.rel 0x04)) ∧
    decodeTableWord 16 0x04D0 = some (.bne (.rel 0x04)) ∧ decodeTableWord 16 0xFEF0 = some (.beq (.rel 0xFE)) := by
  decide +kernel

theorem test_decode_stack_and_flags :
    decodeTableWord 8 0x48 = some .pha ∧ decodeTableWord 8 0x08 = some .php ∧ decodeTableWord 8 0x68 = some .pla ∧
    decodeTableWord 8 0x28 = some .plp ∧ decodeTableWord 8 0x18 = some .clc ∧ decodeTableWord 8 0x38 = some .sec ∧
    decodeTableWord 8 0x58 = some .cli ∧ decodeTableWord 8 0x78 = some .sei ∧ decodeTableWord 8 0xD8 = some .cld ∧
    decodeTableWord 8 0xF8 = some .sed ∧ decodeTableWord 8 0xB8 = some .clv ∧ decodeTableWord 8 0xEA = some .nop ∧
    decodeTableWord 8 0x40 = some .rti ∧ decodeTableWord 8 0x00 = some .brk := by decide +kernel

theorem test_decode_placeholders :
    decodeTableWord 8 0x02 = some (.mia 0x02 .imp) ∧ decodeTableWord 16 0xFF80 = some (.mia 0x80 (.imm 0xFF)) ∧
    decodeTableWord 16 0xFFB7 = some (.mia 0xB7 (.zpy 0xFF)) ∧ decodeTableWord 24 0x02FF9E = some (.mia 0x9E (.aby 0x02FF)) ∧
    decodeTableWord 16 0x10A3 = some (.mia 0xA3 (.izx 0x10)) := by decide +kernel

/-- A list that ends before the instruction does is rejected by name. -/
theorem test_decode_rejects_truncated :
    decodeBytes [] = .rejected .truncated ∧ decodeBytes [0xA9] = .rejected .truncated ∧
    decodeBytes [0x4C, 0x00] = .rejected .truncated := by decide +kernel

theorem test_encode :
    encode (.lda (.imm 0x10)) = [0xA9, 0x10] ∧ encode (.jmp (.ind 0x02FF)) = [0x6C, 0xFF, 0x02] ∧
    encode (.ror .acc) = [0x6A] ∧ encode (.mia 0x04 (.zp 0x10)) = [0x04, 0x10] ∧ encode (.sta (.imm 0x10)) = [] := by
  decide +kernel

/-! ## WellFormed: an ill-formed term for each check, refused by the check and by the machine -/

/-- A form of each instruction with operands that none of its rows has, and placeholders whose opcode is documented or
has another mode. -/
def illFormedTerms : List Instr := [
  .lda .acc, .ldx (.zpx 0x10), .ldy (.zpy 0x10), .sta (.imm 0x10), .stx (.zpx 0x10), .sty (.zpy 0x10),
  .adc (.zpy 0x10), .sbc .imp, .and (.rel 0x10), .ora (.ind 0x1234), .eor .acc, .bit (.imm 0x10), .cmp (.zpy 0x10),
  .cpx (.zpx 0x10), .cpy (.abx 0x1234), .inc (.imm 0x10), .dec .acc, .asl .imp, .lsr (.aby 0x1234), .rol (.izx 0x10)] ++
  [.ror (.izy 0x10), .jmp (.abx 0x1234), .jsr (.ind 0x1234), .bpl .imp, .bmi (.zp 0x10), .bvc (.imm 0x10), .bvs .acc,
  .bcc (.abs 0x1234), .bcs (.ind 0x1234), .bne (.izx 0x10), .beq (.izy 0x10), .mia 0xEA .imp, .mia 0x02 (.imm 0x10)]

theorem test_wellFormed_refuses : illFormedTerms.all (fun i => !i.WellFormed) = true := by decide +kernel

theorem test_exec_refuses_illFormed : illFormedTerms.all (fun i => refusedIllFormed (exec i State.reset)) = true := by
  decide +kernel

/-! ## Instructions: one `CpuStep`, 95_test_vectors.md sections 2.1 to 2.6 -/

theorem test_lda_zpx_wraps :
    ran [0xB5, 0xF0] { c0 with x := 0x20 } [(0x010, 0x33), (0x110, 0x44)] =
      some ({ c0 with x := 0x20, pc := 0x8002, a := 0x33, p := 0x04, cyc := 11 }, [(0x010, 0x33), (0x110, 0x44)]) := by decide +kernel
theorem test_lda_izx_pointer_wraps :
    ran [0xA1, 0xFF] { c0 with x := 0x00 } [(0x000, 0x03), (0x100, 0x07), (0x300, 0xCD), (0x700, 0xEE)] =
      some ({ c0 with x := 0x00, pc := 0x8002, a := 0xCD, p := 0x84, cyc := 13 }, [(0x000, 0x03), (0x100, 0x07), (0x300, 0xCD), (0x700, 0xEE)]) := by decide +kernel
theorem test_ldx_zpy_wraps :
    ran [0xB6, 0xFF] { c0 with y := 0x01 } [(0x000, 0x5A), (0x100, 0x77)] =
      some ({ c0 with y := 0x01, pc := 0x8002, x := 0x5A, p := 0x04, cyc := 11 }, [(0x000, 0x5A), (0x100, 0x77)]) := by decide +kernel
theorem test_ldx_aby_page_cross :
    ran [0xBE, 0x80, 0x02] { c0 with y := 0x80 } [(0x300, 0x12)] =
      some ({ c0 with y := 0x80, pc := 0x8003, x := 0x12, p := 0x04, cyc := 12 }, [(0x300, 0x12)]) := by decide +kernel
theorem test_ldy_clears_zn :
    ran [0xA4, 0x10] { c0 with p := 0x86 } [(0x010, 0x01)] =
      some ({ c0 with p := 0x04, pc := 0x8002, y := 0x01, cyc := 10 }, [(0x010, 0x01)]) := by decide +kernel
theorem test_ldy_zpx :
    ran [0xB4, 0x10] { c0 with x := 0x01 } [(0x011, 0x80)] =
      some ({ c0 with x := 0x01, pc := 0x8002, y := 0x80, p := 0x84, cyc := 11 }, [(0x011, 0x80)]) := by decide +kernel
theorem test_sta_abx_page_cross :
    ran [0x9D, 0xFF, 0x02] { c0 with x := 0x01, a := 0x77 } [] =
      some ({ c0 with x := 0x01, a := 0x77, pc := 0x8003, p := 0x04, cyc := 13 }, [(0x300, 0x77)]) := by decide +kernel
theorem test_sta_izy_page_cross :
    ran [0x91, 0x10] { c0 with y := 0x10, a := 0x88 } [(0x010, 0xF8), (0x011, 0x02)] =
      some ({ c0 with y := 0x10, a := 0x88, pc := 0x8002, p := 0x04, cyc := 14 }, [(0x010, 0xF8), (0x011, 0x02), (0x308, 0x88)]) := by decide +kernel
theorem test_stx_zpy :
    ran [0x96, 0x10] { c0 with x := 0xAA, y := 0xF1 } [] =
      some ({ c0 with x := 0xAA, y := 0xF1, pc := 0x8002, p := 0x04, cyc := 11 }, [(0x001, 0xAA)]) := by decide +kernel
theorem test_sty_abs :
    ran [0x8C, 0x00, 0x04] { c0 with y := 0x5A } [] =
      some ({ c0 with y := 0x5A, pc := 0x8003, p := 0x04, cyc := 11 }, [(0x400, 0x5A)]) := by decide +kernel
theorem test_tax :
    ran [0xAA] { c0 with a := 0x80 } [] =
      some ({ c0 with a := 0x80, pc := 0x8001, x := 0x80, p := 0x84, cyc := 9 }, []) := by decide +kernel
theorem test_tay :
    ran [0xA8] { c0 with a := 0x00, y := 0x09 } [] =
      some ({ c0 with a := 0x00, y := 0x00, pc := 0x8001, p := 0x06, cyc := 9 }, []) := by decide +kernel
theorem test_txa :
    ran [0x8A] { c0 with x := 0x7F, a := 0xFF, p := 0x84 } [] =
      some ({ c0 with x := 0x7F, a := 0x7F, p := 0x04, pc := 0x8001, cyc := 9 }, []) := by decide +kernel
theorem test_tya :
    ran [0x98] { c0 with y := 0x00, a := 0xFF } [] =
      some ({ c0 with y := 0x00, a := 0x00, pc := 0x8001, p := 0x06, cyc := 9 }, []) := by decide +kernel
theorem test_tsx :
    ran [0xBA] { c0 with sp := 0xFD } [] =
      some ({ c0 with sp := 0xFD, pc := 0x8001, x := 0xFD, p := 0x84, cyc := 9 }, []) := by decide +kernel
theorem test_txs_writes_no_flag :
    ran [0x9A] { c0 with x := 0x00, p := 0x84 } [] =
      some ({ c0 with x := 0x00, p := 0x84, pc := 0x8001, sp := 0x00, cyc := 9 }, []) := by decide +kernel
theorem test_adc_carry_and_overflow :
    ran [0x69, 0x90] { c0 with a := 0xD0 } [] =
      some ({ c0 with a := 0x60, pc := 0x8002, p := 0x45, cyc := 9 }, []) := by decide +kernel
theorem test_adc_ignores_decimal :
    ran [0x69, 0x09] { c0 with a := 0x09, p := 0x0C } [] =
      some ({ c0 with a := 0x12, p := 0x0C, pc := 0x8002, cyc := 9 }, []) := by decide +kernel
theorem test_sbc_overflow :
    ran [0xE9, 0xB0] { c0 with a := 0x50, p := 0x05 } [] =
      some ({ c0 with a := 0xA0, p := 0xC4, pc := 0x8002, cyc := 9 }, []) := by decide +kernel
theorem test_sbc_borrow_in :
    ran [0xE9, 0x00] { c0 with a := 0x00, p := 0x04 } [] =
      some ({ c0 with a := 0xFF, p := 0x84, pc := 0x8002, cyc := 9 }, []) := by decide +kernel
theorem test_and_zp :
    ran [0x25, 0x10] { c0 with a := 0xFF } [(0x010, 0x80)] =
      some ({ c0 with a := 0x80, pc := 0x8002, p := 0x84, cyc := 10 }, [(0x010, 0x80)]) := by decide +kernel
theorem test_ora :
    ran [0x09, 0x80] { c0 with a := 0x01 } [] =
      some ({ c0 with a := 0x81, pc := 0x8002, p := 0x84, cyc := 9 }, []) := by decide +kernel
theorem test_eor :
    ran [0x49, 0xAA] { c0 with a := 0xAA } [] =
      some ({ c0 with a := 0x00, pc := 0x8002, p := 0x06, cyc := 9 }, []) := by decide +kernel
theorem test_bit_sets_nvz :
    ran [0x24, 0x10] { c0 with a := 0x01 } [(0x010, 0xC0)] =
      some ({ c0 with a := 0x01, pc := 0x8002, p := 0xC6, cyc := 10 }, [(0x010, 0xC0)]) := by decide +kernel
theorem test_bit_abs :
    ran [0x2C, 0x00, 0x03] { c0 with a := 0x40 } [(0x300, 0x40)] =
      some ({ c0 with a := 0x40, pc := 0x8003, p := 0x44, cyc := 11 }, [(0x300, 0x40)]) := by decide +kernel
theorem test_cmp_less :
    ran [0xC9, 0x60] { c0 with a := 0x50 } [] =
      some ({ c0 with a := 0x50, pc := 0x8002, p := 0x84, cyc := 9 }, []) := by decide +kernel
theorem test_cmp_keeps_v :
    ran [0xC9, 0x01] { c0 with a := 0x80, p := 0x44 } [] =
      some ({ c0 with a := 0x80, p := 0x45, pc := 0x8002, cyc := 9 }, []) := by decide +kernel
theorem test_cpx :
    ran [0xE4, 0x10] { c0 with x := 0x00 } [(0x010, 0x01)] =
      some ({ c0 with x := 0x00, pc := 0x8002, p := 0x84, cyc := 10 }, [(0x010, 0x01)]) := by decide +kernel
theorem test_cpy_equal :
    ran [0xC0, 0xFF] { c0 with y := 0xFF } [] =
      some ({ c0 with y := 0xFF, pc := 0x8002, p := 0x07, cyc := 9 }, []) := by decide +kernel
theorem test_inc_wraps :
    ran [0xE6, 0x10] c0 [(0x010, 0xFF)] =
      some ({ c0 with pc := 0x8002, p := 0x06, cyc := 12 }, []) := by decide +kernel
theorem test_inc_abx_page_cross :
    ran [0xFE, 0xFF, 0x02] { c0 with x := 0x01 } [(0x300, 0x41)] =
      some ({ c0 with x := 0x01, pc := 0x8003, p := 0x04, cyc := 15 }, [(0x300, 0x42)]) := by decide +kernel
theorem test_dec_wraps :
    ran [0xCE, 0x00, 0x03] c0 [] =
      some ({ c0 with pc := 0x8003, p := 0x84, cyc := 13 }, [(0x300, 0xFF)]) := by decide +kernel
theorem test_inx_wraps :
    ran [0xE8] { c0 with x := 0xFF } [] =
      some ({ c0 with x := 0x00, pc := 0x8001, p := 0x06, cyc := 9 }, []) := by decide +kernel
theorem test_iny :
    ran [0xC8] { c0 with y := 0x7F } [] =
      some ({ c0 with y := 0x80, pc := 0x8001, p := 0x84, cyc := 9 }, []) := by decide +kernel
theorem test_dex_wraps :
    ran [0xCA] { c0 with x := 0x00 } [] =
      some ({ c0 with x := 0xFF, pc := 0x8001, p := 0x84, cyc := 9 }, []) := by decide +kernel
theorem test_dey :
    ran [0x88] { c0 with y := 0x01 } [] =
      some ({ c0 with y := 0x00, pc := 0x8001, p := 0x06, cyc := 9 }, []) := by decide +kernel
theorem test_asl_acc :
    ran [0x0A] { c0 with a := 0x81 } [] =
      some ({ c0 with a := 0x02, pc := 0x8001, p := 0x05, cyc := 9 }, []) := by decide +kernel
theorem test_asl_zp :
    ran [0x06, 0x10] c0 [(0x010, 0x40)] =
      some ({ c0 with pc := 0x8002, p := 0x84, cyc := 12 }, [(0x010, 0x80)]) := by decide +kernel
theorem test_lsr_acc :
    ran [0x4A] { c0 with a := 0x01, p := 0x84 } [] =
      some ({ c0 with a := 0x00, p := 0x07, pc := 0x8001, cyc := 9 }, []) := by decide +kernel
theorem test_lsr_zpx :
    ran [0x56, 0x10] { c0 with x := 0x01 } [(0x011, 0xFE)] =
      some ({ c0 with x := 0x01, pc := 0x8002, p := 0x04, cyc := 13 }, [(0x011, 0x7F)]) := by decide +kernel
theorem test_rol_acc :
    ran [0x2A] { c0 with a := 0x80, p := 0x05 } [] =
      some ({ c0 with a := 0x01, p := 0x05, pc := 0x8001, cyc := 9 }, []) := by decide +kernel
theorem test_rol_abs :
    ran [0x2E, 0x00, 0x03] { c0 with p := 0x05 } [(0x300, 0x55)] =
      some ({ c0 with p := 0x84, pc := 0x8003, cyc := 13 }, [(0x300, 0xAB)]) := by decide +kernel
theorem test_ror_acc :
    ran [0x6A] { c0 with a := 0x01, p := 0x04 } [] =
      some ({ c0 with a := 0x00, p := 0x07, pc := 0x8001, cyc := 9 }, []) := by decide +kernel
theorem test_ror_abx_page_cross :
    ran [0x7E, 0xFF, 0x02] { c0 with x := 0x01, p := 0x05 } [(0x300, 0x02)] =
      some ({ c0 with x := 0x01, p := 0x84, pc := 0x8003, cyc := 15 }, [(0x300, 0x81)]) := by decide +kernel
theorem test_jmp_abs :
    ran [0x4C, 0x00, 0x80] c0 [] =
      some ({ c0 with pc := 0x8000, p := 0x04, cyc := 10 }, []) := by decide +kernel
theorem test_jmp_ind_page_wrap :
    ran [0x6C, 0xFF, 0x02] c0 [(0x200, 0x12), (0x2FF, 0x34), (0x300, 0x56)] =
      some ({ c0 with pc := 0x1234, p := 0x04, cyc := 12 }, [(0x200, 0x12), (0x2FF, 0x34), (0x300, 0x56)]) := by decide +kernel
theorem test_jsr :
    ran [0x20, 0x00, 0x90] c0 [] =
      some ({ c0 with pc := 0x9000, sp := 0xFB, p := 0x04, cyc := 13 }, [(0x1FC, 0x02), (0x1FD, 0x80)]) := by decide +kernel
theorem test_rts :
    ran [0x60] { c0 with sp := 0xFB } [(0x1FC, 0x02), (0x1FD, 0x80)] =
      some ({ c0 with sp := 0xFD, pc := 0x8003, p := 0x04, cyc := 13 }, [(0x1FC, 0x02), (0x1FD, 0x80)]) := by decide +kernel
theorem test_rts_sp_wraps :
    ran [0x60] { c0 with sp := 0xFF } [(0x100, 0xFF), (0x101, 0x8F)] =
      some ({ c0 with sp := 0x01, pc := 0x9000, p := 0x04, cyc := 13 }, [(0x100, 0xFF), (0x101, 0x8F)]) := by decide +kernel
theorem test_bne_taken :
    ran [0xD0, 0x04] c0 [] =
      some ({ c0 with pc := 0x8006, p := 0x04, cyc := 10 }, []) := by decide +kernel
theorem test_bne_not_taken :
    ran [0xD0, 0x04] { c0 with p := 0x06 } [] =
      some ({ c0 with p := 0x06, pc := 0x8002, cyc := 9 }, []) := by decide +kernel
theorem test_beq_to_itself :
    ran [0xF0, 0xFE] { c0 with p := 0x06 } [] =
      some ({ c0 with p := 0x06, pc := 0x8000, cyc := 10 }, []) := by decide +kernel
theorem test_bpl_taken :
    ran [0x10, 0x10] c0 [] =
      some ({ c0 with pc := 0x8012, p := 0x04, cyc := 10 }, []) := by decide +kernel
theorem test_bmi_taken :
    ran [0x30, 0x10] { c0 with p := 0x84 } [] =
      some ({ c0 with p := 0x84, pc := 0x8012, cyc := 10 }, []) := by decide +kernel
theorem test_bvc_not_taken :
    ran [0x50, 0x10] { c0 with p := 0x44 } [] =
      some ({ c0 with p := 0x44, pc := 0x8002, cyc := 9 }, []) := by decide +kernel
theorem test_bvs_taken :
    ran [0x70, 0x7F] { c0 with p := 0x44 } [] =
      some ({ c0 with p := 0x44, pc := 0x8081, cyc := 10 }, []) := by decide +kernel
theorem test_bcc_taken_back_across_page :
    ran [0x90, 0x80] c0 [] =
      some ({ c0 with pc := 0x7F82, p := 0x04, cyc := 11 }, []) := by decide +kernel
theorem test_bcs_not_taken :
    ran [0xB0, 0x80] c0 [] =
      some ({ c0 with pc := 0x8002, p := 0x04, cyc := 9 }, []) := by decide +kernel
theorem test_pha_sp_wraps :
    ran [0x48] { c0 with a := 0x42, sp := 0x00 } [] =
      some ({ c0 with a := 0x42, sp := 0xFF, pc := 0x8001, p := 0x04, cyc := 10 }, [(0x100, 0x42)]) := by decide +kernel
theorem test_php_forces_b_and_u :
    ran [0x08] { c0 with p := 0xC5 } [] =
      some ({ c0 with p := 0xC5, pc := 0x8001, sp := 0xFC, cyc := 10 }, [(0x1FD, 0xF5)]) := by decide +kernel
theorem test_pla :
    ran [0x68] { c0 with sp := 0xFC } [(0x1FD, 0x80)] =
      some ({ c0 with sp := 0xFD, pc := 0x8001, a := 0x80, p := 0x84, cyc := 11 }, [(0x1FD, 0x80)]) := by decide +kernel
theorem test_plp_clears_b_and_u :
    ran [0x28] { c0 with sp := 0xFC } [(0x1FD, 0xFF)] =
      some ({ c0 with sp := 0xFD, pc := 0x8001, p := 0xCF, cyc := 11 }, [(0x1FD, 0xFF)]) := by decide +kernel
theorem test_clc :
    ran [0x18] { c0 with p := 0xCF } [] =
      some ({ c0 with p := 0xCE, pc := 0x8001, cyc := 9 }, []) := by decide +kernel
theorem test_sec :
    ran [0x38] c0 [] =
      some ({ c0 with pc := 0x8001, p := 0x05, cyc := 9 }, []) := by decide +kernel
theorem test_cli :
    ran [0x58] c0 [] =
      some ({ c0 with pc := 0x8001, p := 0x00, cyc := 9 }, []) := by decide +kernel
theorem test_sei :
    ran [0x78] { c0 with p := 0x00 } [] =
      some ({ c0 with p := 0x04, pc := 0x8001, cyc := 9 }, []) := by decide +kernel
theorem test_cld :
    ran [0xD8] { c0 with p := 0x0C } [] =
      some ({ c0 with p := 0x04, pc := 0x8001, cyc := 9 }, []) := by decide +kernel
theorem test_sed :
    ran [0xF8] c0 [] =
      some ({ c0 with pc := 0x8001, p := 0x0C, cyc := 9 }, []) := by decide +kernel
theorem test_clv :
    ran [0xB8] { c0 with p := 0xC4 } [] =
      some ({ c0 with p := 0x84, pc := 0x8001, cyc := 9 }, []) := by decide +kernel
theorem test_nop :
    ran [0xEA] { c0 with p := 0xC7, a := 0x01, x := 0x02, y := 0x03 } [] =
      some ({ c0 with p := 0xC7, a := 0x01, x := 0x02, y := 0x03, pc := 0x8001, cyc := 9 }, []) := by decide +kernel
theorem test_brk :
    ran [0x00, 0xFF] { c0 with p := 0xC1 } [] =
      some ({ c0 with p := 0xC5, pc := 0xA000, sp := 0xFA, cyc := 14 }, [(0x1FB, 0xF1), (0x1FC, 0x02), (0x1FD, 0x80)]) := by decide +kernel
theorem test_rti :
    ran [0x40] { c0 with sp := 0xFA } [(0x1FB, 0xF3), (0x1FC, 0x34), (0x1FD, 0x12)] =
      some ({ c0 with sp := 0xFD, pc := 0x1234, p := 0xC3, cyc := 13 }, [(0x1FB, 0xF3), (0x1FC, 0x34), (0x1FD, 0x12)]) := by decide +kernel

/-! ## Placeholders: 95_test_vectors.md section 2.7 -/

theorem test_mia_marks_and_moves_pc :
    (next? (cpuStep (start [0x04, 0xFF] { c0 with p := 0xC5 } []))).map
      (fun t => (t.cpu.pc, t.cpu.p, t.cpu.miaSeen, t.ram)) = some (0x8002, 0xC5, true, []) := by decide +kernel

theorem test_mia_cycles :
    baseCycles (.mia 0x1C (.abx 0x02FF)) = some (Config.miaCycles 0x1C) ∧
    (effAddr (.abx 0x02FF) (start [] { c0 with x := 0x01 } [])).2.cpu.cyc = 8 := ⟨rfl, by decide +kernel⟩

/-! ## Bus, Mapper, PPU space: 95_test_vectors.md E1, E2, E8 and section 2.8 -/

theorem test_ram_mirrors :
    (memWrite 0x1FFF 0xA5 State.reset).ram = [(0x7FF, 0xA5)] ∧
    [0x07FF, 0x0FFF, 0x17FF, 0x1FFF].all (fun a => peek a (memWrite 0x1FFF 0xA5 State.reset) == 0xA5) = true := by
  decide +kernel

theorem test_port_numbers :
    portOf 0x2000 = .ctrl ∧ portOf 0x2007 = .data ∧ portOf 0x2008 = .ctrl ∧ portOf 0x200F = .data ∧
    portOf 0x3456 = .addr ∧ portOf 0x3FFF = .data := by decide +kernel

/-- Two banks: the second answers at 0xC000. Three: the one between is not reached. -/
theorem test_prg_banks :
    let two := { State.reset with cart := slot [[(0, 0x11), (0x3FFF, 0x11)], [(0, 0x22), (0x3FFF, 0x22)]] [] .horizontal }
    let three := { State.reset with cart := slot [[(0, 0x11)], [(0, 0x22)], [(0, 0x33)]] [] .horizontal }
    (peek 0x8000 two, peek 0xBFFF two, peek 0xC000 two, peek 0xFFFF two) = (0x11, 0x11, 0x22, 0x22) ∧
    (peek 0x8000 three, peek 0xC000 three) = (0x11, 0x33) := by decide +kernel

theorem test_rom_and_hole_discard_writes :
    let s := start [0xEA] c0 []
    memWrite 0x8000 0x77 s = s ∧ memWrite 0x6000 0x77 s = s ∧ memWrite 0x4014 0x02 s = s ∧ peek 0x6000 s = 0x00 := by
  decide +kernel

/-- The four name-table quadrants written 1, 2, 3, 4 and read back under a mirroring mode. -/
def quadrants (m : Mirroring) : List Byte :=
  let cart := slot [[]] [] m
  let u := [(0x2000, 1), (0x2400, 2), (0x2800, 3), (0x2C00, 4)].foldl
    (fun u (c : Word × Byte) => (ppuWrite cart u c.1 c.2).2) State.reset.ppu
  [0x2000, 0x2400, 0x2800, 0x2C00, 0x3000, 0x3400, 0x3800, 0x3C00].map fun a => ppuRead cart u a

theorem test_mirroring :
    quadrants .horizontal = [2, 2, 4, 4, 2, 2, 4, 4] ∧ quadrants .vertical = [3, 4, 3, 4, 3, 4, 3, 4] := by
  decide +kernel

theorem test_palette_aliases :
    let r := ppuWrite none State.reset.ppu 0x3F10 0x2A
    r.2.pal = [(0, 0x2A)] ∧ [0x3F00, 0x3F10, 0x3F20, 0x3FF0, 0x7F10].all (fun a => ppuRead none r.2 a == 0x2A) = true ∧
    (ppuWrite none State.reset.ppu 0x3F11 0x09).2.pal = [(0x11, 0x09)] := by decide +kernel

theorem test_chr_is_writable :
    (ppuWrite (slot [[]] [[]] .horizontal) State.reset.ppu 0x4123 0x44).1 = slot [[]] [[(0x123, 0x44)]] .horizontal ∧
    (ppuWrite (slot [[]] [] .horizontal) State.reset.ppu 0x0123 0x44).2.ipat = [(0x123, 0x44)] := by decide +kernel

/-! ## Ports: 95_test_vectors.md section 2.9 -/

/-- The accesses of a sequence, as writes of the CPU space. -/
def writes (l : List (Word × Byte)) (s : State) : State := l.foldl (fun s c => memWrite c.1 c.2 s) s

theorem test_scroll_and_address_sequence :
    let a := writes [(0x2000, 0x00), (0x2005, 0x7D), (0x2005, 0x5E)] State.reset
    let b := writes [(0x2006, 0x21), (0x2006, 0x08), (0x2006, 0xFF)] a
    (a.ppu.fineX, a.ppu.t, a.ppu.w, a.ppu.v) = (5, 0x616F, false, 0x0000) ∧
    (b.ppu.t, b.ppu.w, b.ppu.v) = (0x3F08, true, 0x2108) ∧ (memRead 0x2002 b).2.ppu.w = false := by decide +kernel

theorem test_shared_latch :
    let s := writes [(0x2005, 0x08), (0x2006, 0x10)] State.reset
    (s.ppu.fineX, s.ppu.t, s.ppu.v, s.ppu.w) = (0, 0x0010, 0x0010, false) := by decide +kernel

theorem test_status_read :
    let s := { State.reset with ppu := { State.reset.ppu with status := 0x80, w := true } }
    let r := memRead 0x2002 s
    (r.1, r.2.ppu.status, r.2.ppu.w, (memRead 0x2002 r.2).1) = (0x80, 0x00, false, 0x00) := by decide +kernel

theorem test_data_read_is_buffered :
    let s := { State.reset with ppu := { State.reset.ppu with rdbuf := 0x55 } }
    let s := writes [(0x2006, 0x21), (0x2006, 0x08), (0x2007, 0xAA), (0x2006, 0x21), (0x2006, 0x08)] s
    let r := memRead 0x2007 s
    let r' := memRead 0x2007 r.2
    (s.ppu.nt0, r.1, r.2.ppu.v, r'.1, r'.2.ppu.v) = ([(0x108, 0xAA)], 0x55, 0x2109, 0xAA, 0x210A) := by decide +kernel

theorem test_data_read_of_palette :
    let s := { State.reset with ppu := { State.reset.ppu with rdbuf := 0x55, nt1 := [(0x301, 0x77)] } }
    let s := writes [(0x2006, 0x3F), (0x2006, 0x01), (0x2007, 0x2C), (0x2006, 0x3F), (0x2006, 0x01)] s
    let r := memRead 0x2007 s
    (r.1, r.2.ppu.rdbuf, r.2.ppu.v) = (0x2C, 0x77, 0x3F02) := by decide +kernel

theorem test_increment_by_32_and_wrap :
    let s := writes [(0x2000, 0x04), (0x2006, 0x20), (0x2006, 0x00), (0x2007, 0x01), (0x2007, 0x02)] State.reset
    (s.ppu.nt0, s.ppu.v) = ([(0, 0x01), (32, 0x02)], 0x2040) ∧
    (memWrite 0x2007 0x01 { State.reset with ppu := { State.reset.ppu with v := 0x7FFF } }).ppu.v = 0x0000 := by
  decide +kernel

/-! ## Dots: 95_test_vectors.md E9 and section 2.10 -/

theorem test_incX : (incX 0x001F, incX 0x041F, incX 0x7BBF, incX 0x6FFF) = (0x0400, 0x0000, 0x7FA0, 0x6BE0) := by
  decide +kernel

theorem test_incY :
    (incY 0x73A0, incY 0x73E0, incY 0x2000, incY 0x7BBF) = (0x0800, 0x0000, 0x3000, 0x001F) := by decide +kernel

theorem test_copies : (copyX 0x1234 0x6543, copyY 0x1234 0x6543) = (0x1623, 0x6154) := by decide +kernel

/-- The reset PPU with the scroll register and the dot given. -/
def ppuAt (scanline dot : Nat) : Ppu := { State.reset.ppu with scanline := scanline, dot := dot }

theorem test_fetch_addresses :
    let u (v : BitVec 15) : Ppu := { State.reset.ppu with v := v }
    (tileAddr (u 0x2108), attrAddr (u 0x2108)) = (0x2108, 0x23D2) ∧
    (tileAddr (u 0x6BDF), attrAddr (u 0x6BDF)) = (0x2BDF, 0x2BFF) ∧
    (tileAddr (u 0x0C5E), attrAddr (u 0x0C5E)) = (0x2C5E, 0x2FC7) ∧
    patternAddr { u 0x3000 with ctrl := 0x10, ntLatch := 0x24 } = 0x1243 ∧
    patternAddr { u 0x7000 with ntLatch := 0xFF } = 0x0FF7 := by decide +kernel

theorem test_frame_ends_at_top_left :
    let u := ppuStep .maskGated none (ppuAt 261 340)
    (u.scanline, u.dot) = (0, 0) := by decide +kernel

/-- Entry 0xEFFF is the last of the frame buffer; palette entry 0 is the backdrop. -/
theorem test_pixel_index :
    (ppuStep .maskGated none { ppuAt 239 256 with pal := [(0, 0xCF)] }).fb = [(0xEFFF, 0x0F)] := by decide +kernel

/-! ## NMI, IRQ, tick, reset: 95_test_vectors.md E3, E6 and section 2.11 -/

theorem test_nmi_entry :
    let t := cpuNmi (start [] { c0 with pc := 0x8005, p := 0x84 } [])
    (t.ram, t.cpu.sp, t.cpu.p, t.cpu.pc, t.cpu.cyc) =
      ([(0x1FB, 0xB4), (0x1FC, 0x05), (0x1FD, 0x80)], 0xFA, 0x84, 0x9000, 14) := by decide +kernel

theorem test_nmi_stack_wraps :
    let t := cpuNmi (start [] { c0 with pc := 0x1234, p := 0x41, sp := 0x01 } [])
    (t.ram, t.cpu.sp, t.cpu.p, t.cpu.pc) = ([(0x100, 0x34), (0x101, 0x12), (0x1FF, 0x71)], 0xFE, 0x45, 0x9000) := by
  decide +kernel

theorem test_irq :
    cpuIrq (start [] c0 []) = start [] c0 [] ∧
    (let t := cpuIrq (start [] { c0 with pc := 0x8010, p := 0x00 } [])
     (t.ram, t.cpu.sp, t.cpu.p, t.cpu.pc, t.cpu.cyc) =
       ([(0x1FB, 0x30), (0x1FC, 0x10), (0x1FD, 0x80)], 0xFA, 0x04, 0xA000, 14)) := by decide +kernel

theorem test_vblank_latches_nmi :
    (let u := ppuStep .maskGated none { ppuAt 241 1 with ctrl := 0x80 }; (u.status, u.nmiPending) = (0x80, true)) ∧
    (let u := ppuStep .maskGated none (ppuAt 241 1); (u.status, u.nmiPending) = (0x80, false)) := by decide +kernel

/-- The tick at (241, 1) of program P4: entry, then INC $40 in the same tick. -/
theorem test_nmi_tick :
    let s := start [0xE6, 0x40] { c0 with pc := 0x8005, p := 0x84 } []
    let s := { s with
      cart := slot [[(0x1000, 0xE6), (0x1001, 0x40), (0x3FFB, 0x90)]] [] .horizontal
      ppu := { ppuAt 241 1 with ctrl := 0x80 }
      tick := 82182 }
    (next? (step s)).map (fun t => (t.cpu.pc, t.cpu.sp, t.cpu.p, t.cpu.cyc, t.ppu.nmiPending, t.tick)) =
      some (0x9002, 0xFA, 0x04, 19, false, 82183) ∧
    (next? (step s)).map (fun t => byteAt t.ram 0x40) = some 0x01 := by decide +kernel

/-- A tick without a CPU part. -/
theorem test_tick_without_cpu :
    (next? (step { State.reset with tick := 1 })).map (fun t => (t.cpu, t.ppu.dot, t.tick)) =
      some (State.reset.cpu, 1, 2) := by decide +kernel

theorem test_reset :
    let s := start [] { c0 with a := 1, x := 2, y := 3, sp := 4, p := 0xC3, cyc := 99, miaSeen := true } [(0, 5)]
    cpuReset s = start [] c0 [(0, 5)] ∧ State.reset.cpu = Cpu.reset 0x0000 := by decide +kernel

/-- A cartridge image with reset vector 0xC000 (E3). -/
def image : CartImage := { prg := [[(0x3FFD, 0xC0)]], chr := [], mirroring := .vertical, mapperId := 0 }

theorem test_insert :
    (insertCartridge image State.reset =
      .ok { State.reset with cpu := Cpu.reset 0xC000, cart := slot image.prg [] .vertical }) ∧
    insertCartridge { image with mapperId := 1 } State.reset = .unsupported ∧
    insertCartridge { image with prg := [] } State.reset = .unsupported ∧
    insertCartridge { image with mirroring := .fourScreen } State.reset = .unsupported := by decide +kernel

/-- E11, and the flags of 70_reset_and_hazards.md R447. -/
theorem test_header :
    (headerMapperId 0x01 0x00, headerMapperId 0x10 0x00, headerMapperId 0x40 0x20) = (0, 1, 0x24) ∧
    (headerMirroring 0x00, headerMirroring 0x01, headerMirroring 0x09) = (.horizontal, .vertical, .fourScreen) ∧
    (trainerBytes 0x04, trainerBytes 0x03) = (512, 0) ∧ imageOfFile [0x4E, 0x45, 0x53, 0x1A, 1] = none := by decide +kernel

/-! ## The first step after reset -/

theorem test_first_step_runs_placed_word :
    (next? (step (State.reset.withFetchWord 16 0x80A9))).map (fun t => (t.cpu.a, t.cpu.p, t.cpu.pc, t.cpu.cyc)) =
      some (0x80, 0x84, 0x0002, 9) := by decide +kernel

/-- With nothing placed and no cartridge, the first step executes the BRK that empty RAM holds. -/
theorem test_first_step_of_reset :
    (next? (step State.reset)).map (fun t => (t.cpu.pc, t.cpu.sp, t.cpu.p, t.cpu.cyc, t.tick)) =
      some (0x0000, 0xFA, 0x04, 14, 1) := by decide +kernel

/-! ## Witnesses: a state and operands that meet the hypotheses of each statement that has some -/

theorem witness_DecodingUndoesEncoding :
    Instr.WellFormed (.jmp (.ind 0xFFFF)) = true ∧ Instr.WellFormed (.mia 0xFF (.abx 0xFFFF)) = true := by decide +kernel

theorem witness_DecodedBytesAreTheEncoding : decodeBytes [0xBD, 0xFF, 0x02, 0x00] = .ok (.lda (.abx 0x02FF)) [0x00] := by
  decide +kernel

/-- The last tick of a frame's vblank entry among them: `PC` is where the poll leaves it. -/
theorem witness_StepRunsTheDecodedInstruction :
    let s := start [0x4C, 0x00, 0x80] c0 []
    let t := pollNmi Config.params (stepPpu Config.params s)
    s.tick % 3 = 0 ∧ Instr.WellFormed (.jmp (.abs 0x8000)) = true ∧ codeAt (encode (.jmp (.abs 0x8000))) t.cpu.pc t := by
  refine ⟨by decide +kernel, by decide +kernel, ?_⟩
  unfold codeAt
  decide +kernel

/-- The same after an NMI entry made in the tick. -/
theorem witness_StepRunsTheDecodedInstruction_after_nmi :
    let s := { start [] c0 [] with
      ppu := { ppuAt 241 1 with ctrl := 0x80 }
      cart := slot [[(0x1000, 0xE6), (0x1001, 0x40), (0x3FFB, 0x90)]] [] .horizontal }
    let t := pollNmi Config.params (stepPpu Config.params s)
    s.tick % 3 = 0 ∧ Instr.WellFormed (.inc (.zp 0x40)) = true ∧ t.cpu.pc = 0x9000 ∧
      codeAt (encode (.inc (.zp 0x40))) t.cpu.pc t := by
  refine ⟨by decide +kernel, by decide +kernel, by decide +kernel, ?_⟩
  unfold codeAt
  decide +kernel

theorem witness_EveryInstructionCompletes : Instr.WellFormed (.beq (.rel 0x80)) = true := by decide +kernel

theorem witness_TermsWithoutAnOpcodeAreRefused : Instr.WellFormed (.sta (.imm 0x10)) = false := by decide +kernel

theorem witness_StepKeepsTheMachineInvariant : State.reset.Inv ∧ ∃ t, step State.reset = .next t :=
  ⟨by decide +kernel, _, rfl⟩

theorem witness_ReachableStatesMeetTheMachineInvariant :
    ∃ t, insertCartridge image State.reset = .ok t ∧ Reachable Config.params t :=
  ⟨_, rfl, .event (.insert image) _ _ (.boot _ (by decide +kernel)) (by decide +kernel) rfl⟩

theorem witness_NoNmiIsPendingAfterATick :
    ∃ t, step { State.reset with ppu := { ppuAt 241 1 with ctrl := 0x80, nmiPending := true } } = .next t := ⟨_, rfl⟩

/-- Two different states that agree but for the unread parts. -/
theorem witness_UnreadStateInfluencesNothing :
    let s' := { State.reset with
      cpu := { State.reset.cpu with cyc := 0, miaSeen := true }, ppu := { State.reset.ppu with oddFrame := true, oamData := 1 } }
    State.reset ≠ s' ∧ forgetUnread State.reset = forgetUnread s' ∧ (∃ t, step State.reset = .next t) ∧
      ∃ t', step s' = .next t' := ⟨by decide +kernel, by decide +kernel, ⟨_, rfl⟩, ⟨_, rfl⟩⟩

theorem witness_RegistersNotWrittenKeepTheirValue :
    (∃ t, exec (.asl .acc) State.reset = .next t) ∧ Reg.x ∉ writesReg (.asl .acc) ∧
    (∃ t, exec (.asl (.zp 0xFF)) State.reset = .next t) ∧ Reg.a ∉ writesReg (.asl (.zp 0xFF)) :=
  ⟨⟨_, rfl⟩, by decide, ⟨_, rfl⟩, by decide⟩

theorem witness_FlagsNotWrittenKeepTheirValue :
    (∃ t, exec .plp State.reset = .next t) ∧ (∃ t, exec .rti State.reset = .next t) ∧
      ∃ t, exec (.lda (.imm 0x00)) State.reset = .next t := ⟨⟨_, rfl⟩, ⟨_, rfl⟩, ⟨_, rfl⟩⟩

theorem witness_OnlyTransfersWritePc :
    (∃ t, exec .nop State.reset = .next t) ∧ transfersControl .nop = false ∧ Instr.kind .nop ≠ .mia :=
  ⟨⟨_, rfl⟩, by decide, by decide⟩

theorem witness_InstructionsLeaveRomAndRasterAlone : ∃ t, exec (.sta (.abs 0x2007)) (start [] c0 []) = .next t := ⟨_, rfl⟩

theorem witness_FormsThatStoreNothingKeepMemory :
    storesOperand (.lda (.abs 0x2007)) = false ∧ pushes (.lda (.abs 0x2007)) = 0 ∧
    (∃ t, exec (.lda (.abs 0x2007)) State.reset = .next t) ∧ storesOperand (.ror .acc) = false ∧
    isPort 0x1FFF = false ∧ isPort 0x4000 = false := ⟨rfl, rfl, ⟨_, rfl⟩, rfl, by decide +kernel, by decide +kernel⟩

/-- A store to RAM and one to port 7, with an address of each space that the store leaves alone. -/
theorem witness_StoresChangeOneByte :
    storesOperand (.sta (.abs 0x1FFF)) = true ∧
    (∃ s', effAddr (.abs 0x1FFF) (State.reset.addCyc (baseCount (.sta (.abs 0x1FFF)))) = (some 0x1FFF, s')) ∧
    (∃ t, exec (.sta (.abs 0x1FFF)) State.reset = .next t) ∧ isPort 0x1FFE = false ∧ sameRamByte 0x1FFE 0x1FFF = false ∧
    isPortNo 7 0x1FFF = false ∧ storesOperand (.inc (.abs 0x2007)) = true ∧ readsBeforeStore (.inc (.abs 0x2007)) = true ∧
    (∃ t, exec (.inc (.abs 0x2007)) State.reset = .next t) ∧ isPortNo 7 0x2007 = true ∧
    ppuCell none 0x0000 ≠ ppuCell none (vramAddr (memRead 0x2007 State.reset).2.ppu) :=
  ⟨rfl, ⟨_, rfl⟩, ⟨_, rfl⟩, by decide +kernel, by decide +kernel, by decide +kernel, rfl, rfl, ⟨_, rfl⟩, by decide +kernel,
    by decide +kernel⟩

/-- With the stack pointer at 0 the second and third pushes wrap to the top of the page. -/
theorem witness_PushesChangeOnlyTheirStackBytes :
    let s := State.reset.setSp 0x00
    pushes .brk ≠ 0 ∧ (∃ t, exec .brk s = .next t) ∧ isPort 0x01FD = false ∧
      ∀ k < pushes .brk, sameRamByte 0x01FD (BitVec.ofNat 16 (stackSlot (s.cpu.sp - BitVec.ofNat 8 k))) = false :=
  ⟨by decide, ⟨_, rfl⟩, by decide +kernel, by decide +kernel⟩

theorem witness_OperandIsReadOnce :
    (Operand.imm 0x10 = .imm 0x10) ∧ (∀ d, Operand.izy 0xFF ≠ .imm d) ∧
      ∃ ea s', effAddr (.izy 0xFF) State.reset = (some ea, s') := ⟨rfl, by simp, _, _, rfl⟩

/-- A row and an operand for each instruction of `Reads`, `Stores`, `Modifies`, ADC and SBC. -/
theorem witness_rows :
    (Mode.izy, (0xB1 : Byte), 5) ∈ rows .lda ∧ (Operand.izy 0xFF).mode = .izy ∧
    (Mode.zpy, (0xB6 : Byte), 4) ∈ rows .ldx ∧ (Mode.abx, (0xBC : Byte), 4) ∈ rows .ldy ∧
    (Mode.izy, (0x91 : Byte), 6) ∈ rows .sta ∧ (Mode.zpy, (0x96 : Byte), 4) ∈ rows .stx ∧
    (Mode.zpx, (0x94 : Byte), 4) ∈ rows .sty ∧ (Mode.imm, (0x69 : Byte), 2) ∈ rows .adc ∧
    (Operand.imm 0xFF).mode = .imm ∧ (Mode.abx, (0xFD : Byte), 4) ∈ rows .sbc := by decide +kernel

theorem witness_rows_logic_compare :
    (Mode.izx, (0x21 : Byte), 6) ∈ rows .and ∧ (Mode.imm, (0x09 : Byte), 2) ∈ rows .ora ∧
    (Mode.aby, (0x59 : Byte), 4) ∈ rows .eor ∧ (Mode.abs, (0x2C : Byte), 4) ∈ rows .bit ∧
    (Mode.imm, (0xC9 : Byte), 2) ∈ rows .cmp ∧ (Mode.zp, (0xE4 : Byte), 3) ∈ rows .cpx ∧
    (Mode.abs, (0xCC : Byte), 4) ∈ rows .cpy := by decide +kernel

/-- Both clauses of `Modifies`: the accumulator's form and a memory form. -/
theorem witness_rows_modifies :
    (Mode.abx, (0xFE : Byte), 7) ∈ rows .inc ∧ (Mode.zp, (0xC6 : Byte), 5) ∈ rows .dec ∧
    (Mode.acc, (0x0A : Byte), 2) ∈ rows .asl ∧ Operand.acc.mode = .acc ∧ (Mode.abx, (0x1E : Byte), 7) ∈ rows .asl ∧
    Operand.abx 0xFFFF ≠ .acc ∧ (Operand.abx 0xFFFF).mode = .abx ∧ (Mode.zpx, (0x56 : Byte), 6) ∈ rows .lsr ∧
    (Mode.abs, (0x2E : Byte), 6) ∈ rows .rol ∧ (Mode.abx, (0x7E : Byte), 7) ∈ rows .ror := by decide +kernel

theorem witness_BranchResult :
    let d : Byte := 0x80
    (Instr.beq (.rel d), (0xF0 : Byte)) ∈ [(Instr.bpl (.rel d), (0x10 : Byte)), (.bmi (.rel d), 0x30),
      (.bvc (.rel d), 0x50), (.bvs (.rel d), 0x70), (.bcc (.rel d), 0x90), (.bcs (.rel d), 0xB0), (.bne (.rel d), 0xD0),
      (.beq (.rel d), 0xF0)] := by decide

theorem witness_PlaceholderResult :
    Instr.WellFormed (.mia 0x02 .imp) = true ∧ Instr.WellFormed (.mia 0xF3 (.izy 0xFF)) = true := by decide +kernel

theorem witness_ReturnsUndoCallAndInterrupt : State.reset.cpu.p &&& 0x30 = 0 := by decide +kernel

/-- The ends of every range of the CPU map. -/
theorem witness_CpuReadMap :
    (0x1FFF : Word).toNat < 0x2000 ∧ isPort 0x2000 = true ∧ isPort 0x3FFF = true ∧ 0x4000 ≤ (0x4000 : Word).toNat ∧
    (0x5FFF : Word).toNat < 0x6000 ∧ State.reset.cart = none ∧ (start [] c0 []).cart = slot [bank []] [] .horizontal ∧
    0x6000 ≤ (0x6000 : Word).toNat ∧ (0x7FFF : Word).toNat < 0x8000 ∧ 0x8000 ≤ (0x8000 : Word).toNat ∧
    (0xBFFF : Word).toNat < 0xC000 ∧ 0xC000 ≤ (0xC000 : Word).toNat := by decide +kernel

theorem witness_CpuWriteMap :
    (0x1FFF : Word).toNat < 0x2000 ∧ isPort 0x2000 = true ∧ isPort 0x3FFF = true ∧ isPort 0x4000 = false ∧
    0x4000 ≤ (0x4000 : Word).toNat := by decide +kernel

theorem witness_PpuReadMap :
    (0x5FFF : Word).toNat % 0x4000 < 0x2000 ∧ 0x2000 ≤ (0x2000 : Word).toNat % 0x4000 ∧
    (0x3EFF : Word).toNat % 0x4000 < 0x3F00 ∧ 0x3F00 ≤ (0x3F00 : Word).toNat % 0x4000 := by decide +kernel

theorem witness_ScrollAndAddressWrites :
    State.reset.ppu.w = false ∧ (memWrite 0x2005 0xFF State.reset).ppu.w = true := by decide +kernel

/-- Below the palette with the second read below it too, at its last address, and in it. -/
theorem witness_DataPortRoundTrip :
    State.reset.ppu.w = false ∧ (0x3EFE : Word).toNat + (if State.reset.ppu.ctrl.getLsbD 2 then 32 else 1) < 0x3F00 ∧
    (0x3EFF : Word).toNat < 0x3F00 ∧ 0x3F00 ≤ (0x3F00 : Word).toNat ∧ (0x3FFF : Word).toNat < 0x4000 := by decide +kernel

theorem witness_RasterPositionOfNthDot : State.reset.ppu.scanline = 0 ∧ State.reset.ppu.dot = 0 := by decide +kernel

theorem witness_WhatADotLeavesAlone :
    (240 ≤ (ppuAt 240 1).scanline ∧ (ppuAt 240 1).scanline ≤ 260) ∧
    (240 ≤ (ppuAt 260 1).scanline ∧ (ppuAt 260 1).scanline ≤ 260) ∧ (ppuAt 0 1).mask &&& 0x18 = 0 := by decide +kernel

/-- The first and last fetch cycles of a line and the two that prefetch. -/
theorem witness_FetchCycleLoadsOneTileRow :
    [(0, 1), (31, 249), (40, 321), (41, 329)].all (fun c =>
      decide ((c.1 < 32 ∨ c.1 = 40 ∨ c.1 = 41) ∧ (ppuAt 261 c.2).dot = 8 * c.1 + 1 ∧ (ppuAt 261 c.2).scanline = 261 ∧
        { ppuAt 261 c.2 with mask := 0x10 }.mask &&& 0x18 ≠ 0)) = true := by decide +kernel

theorem witness_ScrollCopiesFallOnTheirDots :
    [257, 279, 280, 304, 305, 320].all (fun d =>
      decide ((ppuAt 261 d).scanline = 261 ∧ { ppuAt 261 d with mask := 0x08 }.mask &&& 0x18 ≠ 0 ∧
        257 ≤ (ppuAt 261 d).dot ∧ (ppuAt 261 d).dot ≤ 320)) = true := by decide +kernel

theorem witness_CartridgeInsertionAndRemoval :
    ({ image with mapperId := 1 } : CartImage).mapperId ≠ 0 ∧ ({ image with prg := [] } : CartImage).prg = [] ∧
    ({ image with mirroring := .fourScreen } : CartImage).mirroring = .fourScreen ∧
    image.mapperId = 0 ∧ image.prg ≠ [] ∧ image.mirroring ≠ .fourScreen := by decide +kernel

end Sys2Proof.Tests
end

section
/-! SUPPORT. The PPU address space by the number of the address: the fields the bus takes out of it, and what a read
answers in each of the three ranges (20_memory.md R100 to R106, R115). -/

namespace Sys2Proof.Machine

open Sys2Proof.Claims

/-! ## The fields of a PPU address -/

theorem ppuAddr_toNat (a : Word) : (a &&& 0x3FFF).toNat = a.toNat % 0x4000 := by
  rw [BitVec.toNat_and]
  exact Nat.and_two_pow_sub_one_eq_mod a.toNat 14

theorem tableIndex_toNat (a : Word) : (a &&& 0x03FF).toNat = a.toNat % 0x400 := by
  rw [BitVec.toNat_and]
  exact Nat.and_two_pow_sub_one_eq_mod a.toNat 10

theorem palMask_toNat (a : Word) : (a &&& 0x1F).toNat = a.toNat % 32 := by
  rw [BitVec.toNat_and]
  exact Nat.and_two_pow_sub_one_eq_mod a.toNat 5

/-- The four aliases are the multiples of 4 in the upper half of the palette. -/
theorem palIndex_eq_mod (a : Word) : palIndex a = if a.toNat % 4 = 0 then a.toNat % 16 else a.toNat % 32 := by
  simp only [palIndex, palMask_toNat]
  split <;> split <;> omega

theorem quadrant_toNat (a : Word) : (quadrant a).toNat = a.toNat / 0x400 % 4 := by
  simp [quadrant, Nat.shiftRight_eq_div_pow]

/-! ## The name table a mirroring mode selects (20_memory.md R104) -/

theorem ntSelect_vertical (a : Word) : ntSelect .vertical a = (a.toNat / 0x400 % 4 % 2 == 1) := by
  rw [ntSelect, ← quadrant_toNat]
  generalize quadrant a = q
  revert q
  decide

theorem ntSelect_horizontal (a : Word) : ntSelect .horizontal a = (a.toNat / 0x400 % 4 / 2 == 1) := by
  rw [ntSelect, ← quadrant_toNat]
  generalize quadrant a = q
  revert q
  decide

theorem ntSelect_fourScreen (a : Word) :
    ntSelect .fourScreen a = Config.ntSelectFourScreen (BitVec.ofNat 2 (a.toNat / 0x400 % 4)) := by
  rw [ntSelect, ← quadrant_toNat, BitVec.ofNat_toNat, BitVec.setWidth_eq]

/-! ## What the Mapper and a read of the bus answer -/

/-- Mapper0 claims no PPU read from 0x2000 on. -/
theorem ppuReadMap_high {m : Mapper} {a : Word} (h : 0x2000 ≤ a.toNat) : ppuReadMap m a = none := by
  obtain ⟨prg, _ | ⟨bank, others⟩⟩ := m
  · rfl
  · rw [ppuReadMap, if_neg (by omega)]

/-- From 0x2000 on the internal tables answer, whatever is attached. -/
theorem ppuRead_internal (cart : Option Cartridge) (u : Ppu) {addr : Word} (h : 0x2000 ≤ addr.toNat % 0x4000) :
    ppuRead cart u addr = ppuInternalRead cart u (addr &&& 0x3FFF) := by
  have miss : (cart.bind fun c => ppuReadMap c.mapper (addr &&& 0x3FFF)) = none := by
    cases cart with
    | none => rfl
    | some c => exact ppuReadMap_high (by rwa [ppuAddr_toNat])
  simp only [ppuRead, miss]

/-- A read of the pattern range answers the first CHR bank, or the internal pattern memory with none. -/
theorem ppuRead_pattern (cart : Option Cartridge) (u : Ppu) {addr : Word} (h : addr.toNat % 0x4000 < 0x2000) :
    ppuRead cart u addr = byteAt ((chrBanks cart).headD u.ipat) (addr.toNat % 0x4000) := by
  have hle : (addr &&& 0x3FFF).toNat ≤ 0x1FFF := by rw [ppuAddr_toNat]; omega
  have internal : ppuInternalRead cart u (addr &&& 0x3FFF) = byteAt u.ipat (addr.toNat % 0x4000) := by
    rw [ppuInternalRead, if_pos hle, ppuAddr_toNat]
  rcases cart with _ | ⟨mirroring, mapperId, prg, _ | ⟨bank, others⟩⟩
  · exact internal
  · exact internal
  · simp only [ppuRead, Option.bind_some, ppuReadMap, if_pos hle]
    rw [ppuAddr_toNat]
    rfl

/-- A read of the name-table range answers the table the mirroring mode in force selects. -/
theorem ppuRead_nameTable (cart : Option Cartridge) (u : Ppu) {addr : Word} (h : 0x2000 ≤ addr.toNat % 0x4000)
    (h' : addr.toNat % 0x4000 < 0x3F00) :
    ppuRead cart u addr =
      byteAt (ntOf u (ntSelect (mirroringOf cart) (addr &&& 0x3FFF))) (addr.toNat % 0x4000 % 0x400) := by
  rw [ppuRead_internal cart u h, ppuInternalRead, if_neg (by rw [ppuAddr_toNat]; omega),
    if_pos (by rw [ppuAddr_toNat]; omega), tableIndex_toNat, ppuAddr_toNat]

/-- A read of the palette range answers the palette byte, whatever is attached. -/
theorem ppuRead_palette (cart : Option Cartridge) (u : Ppu) {addr : Word} (h : 0x3F00 ≤ addr.toNat % 0x4000) :
    ppuRead cart u addr = byteAt u.pal (palIndex (addr &&& 0x3FFF)) := by
  rw [ppuRead_internal cart u (by omega), ppuInternalRead, if_neg (by rw [ppuAddr_toNat]; omega),
    if_neg (by rw [ppuAddr_toNat]; omega)]

end Sys2Proof.Machine
end

section

namespace Sys2Proof.Proofs

open Sys2Proof.Machine

/-- Settles O45, range by range: the name table comes from the mirroring mode by cases, with no cartridge Horizontal. -/
theorem ppuReadMap : Obligations.PpuReadMap := by
  unfold Obligations.PpuReadMap
  intro cart u addr
  refine ⟨ppuRead_pattern cart u, fun h h' => ?_, fun h => ?_⟩
  · rw [ppuRead_nameTable cart u h h', ntOf]
    rcases cart with _ | ⟨_ | _ | _, mapperId, mapper⟩
    case none => simp only [mirroringOf, Config.ntMirrorNoCart, ntSelect_horizontal, ppuAddr_toNat]
    case some.fourScreen => simp only [mirroringOf, ntSelect_fourScreen, ppuAddr_toNat]
    case some.vertical => simp only [mirroringOf, ntSelect_vertical, ppuAddr_toNat]
    case some.horizontal => simp only [mirroringOf, ntSelect_horizontal, ppuAddr_toNat]
  · rw [ppuRead_palette cart u h, palIndex_eq_mod, ppuAddr_toNat]

end Sys2Proof.Proofs
end

section
/-! SUPPORT. The body of each instruction, by name, and what it is made of: bus accesses and changes of the CPU registers
that the tables of 30_encoding.md R146 and 44_control_flow.md R272 allow. -/

namespace Sys2Proof.Machine

open Sys2Proof.Claims

/-! ## The body of an instruction -/

/-- What an instruction does after its base count of cycles; `exec_eq_instrBody` ties it to `exec`. -/
def instrBody (i : Instr) (s : State) : State :=
  match i with
  | .lda o => let m := readOperand o s; setZN m.1 (m.2.setA m.1)
  | .ldx o => let m := readOperand o s; setZN m.1 (m.2.setX m.1)
  | .ldy o => let m := readOperand o s; setZN m.1 (m.2.setY m.1)
  | .sta o => writeOperand o (fun s => s.cpu.a) s
  | .stx o => writeOperand o (fun s => s.cpu.x) s
  | .sty o => writeOperand o (fun s => s.cpu.y) s
  | .tax => setZN s.cpu.a (s.setX s.cpu.a)
  | .tay => setZN s.cpu.a (s.setY s.cpu.a)
  | .txa => setZN s.cpu.x (s.setA s.cpu.x)
  | .tya => setZN s.cpu.y (s.setA s.cpu.y)
  | .tsx => setZN s.cpu.sp (s.setX s.cpu.sp)
  | .txs => s.setSp s.cpu.x
  | .adc o => let m := readOperand o s; addWithCarry m.1 m.2
  | .sbc o => let m := readOperand o s; addWithCarry (m.1 ^^^ 0xFF) m.2
  | .and o => logicA (· &&& ·) o s
  | .ora o => logicA (· ||| ·) o s
  | .eor o => logicA (· ^^^ ·) o s
  | .bit o => let m := readOperand o s; bitTest m.1 m.2
  | .cmp o => let m := readOperand o s; compareBytes m.2.cpu.a m.1 m.2
  | .cpx o => let m := readOperand o s; compareBytes m.2.cpu.x m.1 m.2
  | .cpy o => let m := readOperand o s; compareBytes m.2.cpu.y m.1 m.2
  | .inc o => modifyOperand o (· + 1) (fun _ s => s) s
  | .dec o => modifyOperand o (· - 1) (fun _ s => s) s
  | .inx => setZN (s.cpu.x + 1) (s.setX (s.cpu.x + 1))
  | .iny => setZN (s.cpu.y + 1) (s.setY (s.cpu.y + 1))
  | .dex => setZN (s.cpu.x - 1) (s.setX (s.cpu.x - 1))
  | .dey => setZN (s.cpu.y - 1) (s.setY (s.cpu.y - 1))
  | .asl o => modifyOperand o (shiftLeftIn false) (fun m s => s.setC (bitOf m 7)) s
  | .lsr o => modifyOperand o (shiftRightIn false) (fun m s => s.setC (bitOf m 0)) s
  | .rol o => modifyOperand o (shiftLeftIn s.flagC) (fun m s => s.setC (bitOf m 7)) s
  | .ror o => modifyOperand o (shiftRightIn s.flagC) (fun m s => s.setC (bitOf m 0)) s
  | .jmp o => jumpTo o s
  | .jsr o => callSubroutine o s
  | .rts => returnFromSubroutine s
  | .bpl o => branch (fun s => !s.flagN) o s
  | .bmi o => branch (fun s => s.flagN) o s
  | .bvc o => branch (fun s => !s.flagV) o s
  | .bvs o => branch (fun s => s.flagV) o s
  | .bcc o => branch (fun s => !s.flagC) o s
  | .bcs o => branch (fun s => s.flagC) o s
  | .bne o => branch (fun s => !s.flagZ) o s
  | .beq o => branch (fun s => s.flagZ) o s
  | .pha => push s.cpu.a s
  | .php => push (pushedP s.cpu.p) s
  | .pla => let m := pop s; setZN m.1 (m.2.setA m.1)
  | .plp => let m := pop s; m.2.setP (pulledP m.1)
  | .clc => s.setC false
  | .sec => s.setC true
  | .cli => s.setI false
  | .sei => s.setI true
  | .cld => s.setD false
  | .sed => s.setD true
  | .clv => s.setV false
  | .nop => s
  | .rti => returnFromInterrupt s
  | .brk => interrupt irqVector (s.setPc (s.cpu.pc + 1))
  | .mia _ o => (effAddr o s).2.markMia

/-- The meaning of every instruction is its base count and then its body (40_cpu_step_and_addressing.md R160). -/
theorem exec_eq_instrBody (i : Instr) (s : State) : exec i s = withCycles i (instrBody i) s := by cases i <;> rfl

/-- What `exec` answers next is the body's state after the base count. -/
theorem exec_next {i : Instr} {s t : State} (h : exec i s = .next t) :
    ∃ n, baseCycles i = some n ∧ t = instrBody i (s.addCyc n) :=
  withCycles_next (exec_eq_instrBody i s ▸ h)

/-! ## What an instruction may change -/

/-- The changes of `P`, `PC` and `miaSeen` that an instruction may make. -/
structure CpuFrame (i : Instr) (c c' : Cpu) : Prop where
  flags : c'.p &&& ~~~flagMask i = c.p &&& ~~~flagMask i
  pc : transfersControl i = false → c'.pc = c.pc
  mia : i.kind ≠ .mia → c'.miaSeen = c.miaSeen

/-- `t` comes from `s` by bus reads, bus writes and changes of CPU registers that the instruction may make. -/
inductive Moves (i : Instr) (s : State) : State → Prop where
  | refl : Moves i s s
  | read {t : State} (h : Moves i s t) (a : Word) : Moves i s (memRead a t).2
  | write {t : State} (h : Moves i s t) (a : Word) (d : Byte) : Moves i s (memWrite a d t)
  | cpu {t : State} (h : Moves i s t) (c : Cpu) (hc : CpuFrame i t.cpu c) : Moves i s { t with cpu := c }

/-- Replacing a bit outside a mask keeps the bits of the mask. -/
theorem setBit_and_of_getLsbD_false {k : Nat} {m : Byte} (b : Byte) (v : Bool) (hk : k < 8) (hm : m.getLsbD k = false) :
    setBit b k v &&& m = b &&& m := by
  apply BitVec.eq_of_getLsbD_eq
  intro j _
  have hbit : (setBit b k v).getLsbD j = if j = k then v else b.getLsbD j := bitOf_setBit b k j v hk
  rw [BitVec.getLsbD_and, BitVec.getLsbD_and, hbit]
  split
  · next e => rw [e, hm, Bool.and_false, Bool.and_false]
  · rfl

namespace Moves

variable {i : Instr} {s t : State}

/-! ## Register updates

The conditions on the instruction's tables default to their evaluation, so that a use for one instruction names none. -/

theorem setA (h : Moves i s t) (v : Byte) : Moves i s (t.setA v) := h.cpu _ ⟨rfl, fun _ => rfl, fun _ => rfl⟩
theorem setX (h : Moves i s t) (v : Byte) : Moves i s (t.setX v) := h.cpu _ ⟨rfl, fun _ => rfl, fun _ => rfl⟩
theorem setY (h : Moves i s t) (v : Byte) : Moves i s (t.setY v) := h.cpu _ ⟨rfl, fun _ => rfl, fun _ => rfl⟩
theorem setSp (h : Moves i s t) (v : Byte) : Moves i s (t.setSp v) := h.cpu _ ⟨rfl, fun _ => rfl, fun _ => rfl⟩
theorem addCyc (h : Moves i s t) (n : Nat) : Moves i s (t.addCyc n) := h.cpu _ ⟨rfl, fun _ => rfl, fun _ => rfl⟩

theorem setPc (h : Moves i s t) (v : Word) (hi : transfersControl i = true := by rfl) : Moves i s (t.setPc v) :=
  h.cpu _ ⟨rfl, fun e => absurd (hi.symm.trans e) (by decide), fun _ => rfl⟩

theorem markMia (h : Moves i s t) (hi : i.kind = .mia := by rfl) : Moves i s t.markMia :=
  h.cpu _ ⟨rfl, fun _ => rfl, fun e => absurd hi e⟩

/-- An instruction that writes all of `P` may load any status byte. -/
theorem loadP (h : Moves i s t) (v : Byte) (hi : flagMask i = 0xFF := by rfl) : Moves i s (t.setP v) :=
  h.cpu _ ⟨by rw [hi]; simp, fun _ => rfl, fun _ => rfl⟩

theorem setFlag (h : Moves i s t) (k : Nat) (v : Bool) (hk : k < 8 := by decide)
    (hi : (flagMask i).getLsbD k = true := by simp [flagMask]) : Moves i s (t.setP (setBit t.cpu.p k v)) :=
  h.cpu _ ⟨setBit_and_of_getLsbD_false _ _ hk (by simp [hi]), fun _ => rfl, fun _ => rfl⟩

theorem setZN (h : Moves i s t) (v : Byte) (hz : (flagMask i).getLsbD 1 = true := by simp [flagMask])
    (hn : (flagMask i).getLsbD 7 = true := by simp [flagMask]) : Moves i s (Machine.setZN v t) :=
  (h.setFlag 1 _ (by decide) hz).setFlag 7 _ (by decide) hn

theorem setC (h : Moves i s t) (v : Bool) (hc : (flagMask i).getLsbD 0 = true := by simp [flagMask]) : Moves i s (t.setC v) :=
  h.setFlag 0 v (by decide) hc

theorem setV (h : Moves i s t) (v : Bool) (hv : (flagMask i).getLsbD 6 = true := by simp [flagMask]) : Moves i s (t.setV v) :=
  h.setFlag 6 v (by decide) hv

theorem addWithCarry (h : Moves i s t) (m : Byte) (hi : flagMask i = 0xC3 := by rfl) : Moves i s (Machine.addWithCarry m t) :=
  (((h.setC _ (by rw [hi]; rfl)).setV _ (by rw [hi]; rfl)).setA _).setZN _ (by rw [hi]; rfl) (by rw [hi]; rfl)

theorem compareBytes (h : Moves i s t) (r m : Byte) (hi : flagMask i = 0x83 := by rfl) : Moves i s (Machine.compareBytes r m t) :=
  (h.setC _ (by rw [hi]; rfl)).setZN _ (by rw [hi]; rfl) (by rw [hi]; rfl)

theorem trans {u : State} (h : Moves i s t) (h' : Moves i t u) : Moves i s u := by
  induction h' with
  | refl => exact h
  | read _ a ih => exact ih.read a
  | write _ a d ih => exact ih.write a d
  | cpu _ c hc ih => exact ih.cpu c hc

/-! ## Operands -/

theorem indexed (h : Moves i s t) (base : Word) (index : Byte) : Moves i s (Machine.indexed base index t).2 := by
  unfold Machine.indexed
  dsimp only
  split
  · exact h.addCyc 1
  · exact h

theorem effAddr (h : Moves i s t) (o : Operand) : Moves i s (Machine.effAddr o t).2 := by
  cases o with
  | abx a => exact h.indexed a t.cpu.x
  | aby a => exact h.indexed a t.cpu.y
  | izx d => simpa only [Machine.effAddr, zeroPagePointer_eq] using h
  | izy d => simpa only [Machine.effAddr, zeroPagePointer_eq] using h.indexed _ _
  | ind a => exact (h.read _).read _
  | _ => exact h

theorem readOperand (h : Moves i s t) (o : Operand) : Moves i s (Machine.readOperand o t).2 := by
  unfold Machine.readOperand
  split
  · exact h
  · dsimp only
    split
    · exact (h.effAddr _).read _
    · exact h.effAddr _

theorem writeOperand (h : Moves i s t) (o : Operand) (v : State → Byte) : Moves i s (Machine.writeOperand o v t) := by
  unfold Machine.writeOperand
  dsimp only
  split
  · exact (h.effAddr o).write _ _
  · exact (h.effAddr o).setA _

theorem modifyOperand (h : Moves i s t) (o : Operand) (f : Byte → Byte) {flags : Byte → State → State}
    (hflags : ∀ {u : State} (m : Byte), Moves i s u → Moves i s (flags m u))
    (hz : (flagMask i).getLsbD 1 = true := by simp [flagMask]) (hn : (flagMask i).getLsbD 7 = true := by simp [flagMask]) :
    Moves i s (Machine.modifyOperand o f flags t) := by
  unfold Machine.modifyOperand
  dsimp only
  split
  · exact ((hflags _ ((h.effAddr o).read _)).write _ _).setZN _ hz hn
  · exact ((hflags _ (h.effAddr o)).setA _).setZN _ hz hn

theorem logicA (h : Moves i s t) (f : Byte → Byte → Byte) (o : Operand) (hi : flagMask i = 0x82 := by rfl) :
    Moves i s (Machine.logicA f o t) :=
  ((h.readOperand o).setA _).setZN _ (by rw [hi]; rfl) (by rw [hi]; rfl)

/-! ## Control transfer and the stack -/

theorem branch (h : Moves i s t) (cond : State → Bool) (o : Operand) (hi : transfersControl i = true := by rfl) :
    Moves i s (Machine.branch cond o t) := by
  unfold Machine.branch
  dsimp only
  split
  · split
    · split
      · exact (((h.effAddr o).addCyc 1).addCyc 1).setPc _ hi
      · exact ((h.effAddr o).addCyc 1).setPc _ hi
    · exact h.effAddr o
  · exact h.effAddr o

theorem jumpTo (h : Moves i s t) (o : Operand) (hi : transfersControl i = true := by rfl) : Moves i s (Machine.jumpTo o t) := by
  unfold Machine.jumpTo
  dsimp only
  split
  · exact (h.effAddr o).setPc _ hi
  · exact h.effAddr o

theorem push (h : Moves i s t) (v : Byte) : Moves i s (Machine.push v t) := (h.write _ v).setSp _

theorem pop (h : Moves i s t) : Moves i s (Machine.pop t).2 := (h.setSp _).read _

theorem callSubroutine (h : Moves i s t) (o : Operand) (hi : transfersControl i = true := by rfl) :
    Moves i s (Machine.callSubroutine o t) := by
  unfold Machine.callSubroutine
  dsimp only
  split
  · exact (((h.effAddr o).push _).push _).setPc _ hi
  · exact ((h.effAddr o).push _).push _

theorem readVector (h : Moves i s t) (vec : Word) : Moves i s (Machine.readVector vec t).2 := (h.read _).read _

theorem interrupt (h : Moves i s t) (vec : Word) (hi : transfersControl i = true := by rfl)
    (hm : (flagMask i).getLsbD 2 = true := by simp [flagMask]) : Moves i s (Machine.interrupt vec t) :=
  ((((((h.push _).push _).push _).setFlag 2 true (by decide) hm).readVector vec).setPc _ hi)

end Moves

/-- The body of every instruction is made of moves the instruction may make. -/
theorem instrBody_moves (i : Instr) (s : State) : Moves i s (instrBody i s) := by
  have h : Moves i s s := .refl
  unfold instrBody
  cases i with
  | lda o => exact ((h.readOperand o).setA _).setZN _
  | ldx o => exact ((h.readOperand o).setX _).setZN _
  | ldy o => exact ((h.readOperand o).setY _).setZN _
  | sta o | stx o | sty o => exact h.writeOperand o _
  | tax | tsx | inx | dex => exact (h.setX _).setZN _
  | tay | iny | dey => exact (h.setY _).setZN _
  | txa | tya => exact (h.setA _).setZN _
  | txs => exact h.setSp _
  | adc o | sbc o => exact (h.readOperand o).addWithCarry _
  | and o | ora o | eor o => exact h.logicA _ o
  | bit o => exact (((h.readOperand o).setFlag 1 _).setFlag 7 _).setFlag 6 _
  | cmp o | cpx o | cpy o => exact (h.readOperand o).compareBytes _ _
  | inc o | dec o => exact h.modifyOperand o _ (fun _ hu => hu)
  | asl o | lsr o | rol o | ror o => exact h.modifyOperand o _ (fun _ hu => hu.setC _)
  | jmp o => exact h.jumpTo o
  | jsr o => exact h.callSubroutine o
  | rts => exact (h.pop.pop).setPc _
  | bpl o | bmi o | bvc o | bvs o | bcc o | bcs o | bne o | beq o => exact h.branch _ o
  | pha | php => exact h.push _
  | pla => exact (h.pop.setA _).setZN _
  | plp => exact h.pop.loadP _
  | clc | sec => exact h.setC _
  | cli | sei => exact h.setFlag 2 _
  | cld | sed => exact h.setFlag 3 _
  | clv => exact h.setV _
  | nop => exact h
  | rti => exact ((h.pop.loadP _).pop.pop).setPc _
  | brk => exact (h.setPc _).interrupt _
  | mia op o => exact (h.effAddr o).markMia

/-- Whatever `exec` answers next is reached by moves the instruction may make. -/
theorem exec_moves {i : Instr} {s t : State} (h : exec i s = .next t) : Moves i s t := by
  obtain ⟨n, -, rfl⟩ := exec_next h
  exact (Moves.refl.addCyc n).trans (instrBody_moves i _)

end Sys2Proof.Machine
end

section
/-! SUPPORT. What the moves of an instruction leave alone: the CPU registers outside its frame, ROM, the mirroring mode, the
raster, the latches and the pipeline. -/

namespace Sys2Proof.Machine

open Sys2Proof.Claims

/-! ## The CPU registers -/

/-- The changes an instruction may make add up to one it may make. -/
theorem Moves.cpuFrame {i : Instr} {s t : State} (h : Moves i s t) : CpuFrame i s.cpu t.cpu := by
  induction h with
  | refl => exact ⟨rfl, fun _ => rfl, fun _ => rfl⟩
  | read _ a ih => rwa [memRead_cpu]
  | write _ a d ih => rwa [memWrite_cpu]
  | cpu _ c hc ih =>
    exact ⟨hc.flags.trans ih.flags, fun e => (hc.pc e).trans (ih.pc e), fun e => (hc.mia e).trans (ih.mia e)⟩

/-- A status byte from the stack has Break and Reserved 0. -/
theorem pulledP_breakReserved (b : Byte) : pulledP b &&& 0x30 = 0 := by
  rw [pulledP, BitVec.and_assoc]
  exact BitVec.and_zero

theorem plp_breakReserved (s : State) : (instrBody .plp s).cpu.p &&& 0x30 = 0 := pulledP_breakReserved _

theorem rti_breakReserved (s : State) : (instrBody .rti s).cpu.p &&& 0x30 = 0 := by
  simp only [instrBody, returnFromInterrupt, pop_frame, setPc_p, setSp_p, setP_p, pulledP_breakReserved]

/-! ## ROM, raster, pipeline -/

/-- The parts of a PPU that no port access changes: the others are set to 0. -/
def rasterAndPipeline (u : Ppu) : Ppu :=
  { u with
    ctrl := 0, mask := 0, status := 0, oamAddr := 0, oamData := 0, v := 0, t := 0, fineX := 0, w := false, rdbuf := 0
    nt0 := [], nt1 := [], pal := [], ipat := [] }

/-- The PRG banks of a slot, as `prgBanks` takes them from a state. -/
def slotPrg (cart : Option Cartridge) : List Memory :=
  match cart with
  | some c => match c.mapper with | .mapper0 prg _ => prg
  | none => []

theorem prgBanks_eq_slotPrg (s : State) : prgBanks s = slotPrg s.cart := rfl

/-- The parts of the slot that no bus access changes: the PRG banks, the CHR banks but the first, the mirroring mode and the
mapper number. -/
def romAndMirroring (cart : Option Cartridge) : List Memory × List Memory × Option (Mirroring × Nat) :=
  (slotPrg cart, (chrBanks cart).tail, cart.map fun c => (c.mirroring, c.mapperId))

theorem portRead_rasterAndPipeline (cart : Option Cartridge) (u : Ppu) (i : Port) :
    rasterAndPipeline (portRead cart u i).2 = rasterAndPipeline u := by
  rw [portRead_frame]; rfl

theorem ppuWrite_romAndMirroring (cart : Option Cartridge) (u : Ppu) (a : Word) (d : Byte) :
    romAndMirroring (ppuWrite cart u a d).1 = romAndMirroring cart := by
  rcases ppuWrite_cart cart u a d with h | ⟨c, m, hc, h, hm⟩
  · rw [h]
  · obtain ⟨-, prg, bank, others, e, e'⟩ := ppuWriteMap_some hm
    rw [h, hc, e']
    simp only [romAndMirroring, slotPrg, chrBanks, Option.map_some, e, List.tail_cons]

theorem portWrite_keeps (cart : Option Cartridge) (u : Ppu) (i : Port) (d : Byte) :
    romAndMirroring (portWrite cart u i d).1 = romAndMirroring cart ∧
      rasterAndPipeline (portWrite cart u i d).2 = rasterAndPipeline u := by
  rcases portWrite_cases cart u i d with ⟨_, _, _, _, _, _, _, _, h⟩ | ⟨-, v, h⟩ <;> rw [h]
  · exact ⟨rfl, rfl⟩
  · exact ⟨ppuWrite_romAndMirroring cart u _ d, by rw [ppuWrite_frame]; rfl⟩

/-- No move changes the slot's fixed parts or the PPU's. -/
theorem Moves.keeps_romAndRaster {i : Instr} {s t : State} (h : Moves i s t) :
    romAndMirroring t.cart = romAndMirroring s.cart ∧ rasterAndPipeline t.ppu = rasterAndPipeline s.ppu := by
  induction h with
  | refl => exact ⟨rfl, rfl⟩
  | @read t _ a ih =>
    obtain ⟨hcart, hppu⟩ := ih
    refine ⟨by rwa [memRead_cart], ?_⟩
    rw [← hppu, memRead_ppu_frame]; rfl
  | @write t _ a d ih =>
    rcases memWrite_cases a d t with ⟨-, e⟩ | ⟨-, -, j, -, e⟩ | ⟨-, e⟩ <;> rw [e]
    · exact ih
    · obtain ⟨hcart, hppu⟩ := portWrite_keeps t.cart t.ppu j d
      exact ⟨hcart.trans ih.1, hppu.trans ih.2⟩
    · exact ih
  | cpu _ c hc ih => exact ih

end Sys2Proof.Machine
end

section

namespace Sys2Proof.Proofs

open Sys2Proof.Machine Sys2Proof.Claims

/-- Settles O17: the moves of an instruction keep the bits outside its mask, and PLP and RTI load a pulled status. -/
theorem flagsNotWrittenKeepTheirValue : Obligations.FlagsNotWrittenKeepTheirValue := by
  unfold Obligations.FlagsNotWrittenKeepTheirValue
  intro i s t h
  refine ⟨(exec_moves h).cpuFrame.flags, ?_⟩
  obtain ⟨n, -, rfl⟩ := exec_next h
  rintro (rfl | rfl)
  · exact plp_breakReserved _
  · exact rti_breakReserved _

/-- Settles O18: the moves of an instruction change `PC` and `miaSeen` only where the tables say so. -/
theorem onlyTransfersWritePc : Obligations.OnlyTransfersWritePc := by
  unfold Obligations.OnlyTransfersWritePc
  intro i s t h
  exact ⟨(exec_moves h).cpuFrame.pc, (exec_moves h).cpuFrame.mia⟩

/-- Settles O19: no move of an instruction changes the fixed parts of the slot and of the PPU. -/
theorem instructionsLeaveRomAndRasterAlone : Obligations.InstructionsLeaveRomAndRasterAlone := by
  unfold Obligations.InstructionsLeaveRomAndRasterAlone
  intro i s t h
  obtain ⟨hcart, hppu⟩ := (exec_moves h).keeps_romAndRaster
  refine ⟨?_, congrArg (·.2.1) hcart, congrArg (·.2.2) hcart, ?_, ?_, ?_⟩
  · rw [prgBanks_eq_slotPrg, prgBanks_eq_slotPrg]
    exact congrArg (·.1) hcart
  · exact (congrArg (fun u : Ppu => (u.scanline, u.dot, u.oddFrame, u.nmiPending, u.fb, u.ignoreCtrlWrites)) hppu :)
  · exact (congrArg (fun u : Ppu => (u.shPatLo, u.shPatHi, u.shAttrLo, u.shAttrHi)) hppu :)
  · exact (congrArg (fun u : Ppu => (u.ntLatch, u.atLatch, u.loLatch, u.hiLatch)) hppu :)

end Sys2Proof.Proofs
end

section
/-! SUPPORT. The invariant of a tick: every part of the tick keeps the form of the memories, the raster and STATUS; the NMI
poll clears the latch; the CPU keeps Break and Reserved 0. -/

namespace Sys2Proof.Machine

open Sys2Proof.Claims

/-- What the invariant says of the PPU, the NMI latch left out. -/
structure PpuOk (u : Ppu) : Prop where
  memories : ppuMemoriesOk u = true
  raster : rasterOk u = true
  status : ppuStatusOk u = true
  guard : u.ignoreCtrlWrites = false

/-- What the invariant says of the machine, the CPU registers and the NMI latch left out. -/
structure MachineOk (s : State) : Prop where
  ram : memoryOk 0x800 s.ram = true
  ppu : PpuOk s.ppu
  cart : cartOk s.cart = true

theorem inv_iff (s : State) :
    s.Inv ↔ MachineOk s ∧ statusRegisterOk s.cpu = true ∧ s.ppu.nmiPending = false := by
  constructor
  · rintro ⟨hram, hmem, hcart, hp, hraster, hstatus, hguard, hnmi⟩
    exact ⟨⟨hram, ⟨hmem, hraster, hstatus, hguard⟩, hcart⟩, hp, hnmi⟩
  · rintro ⟨⟨hram, ⟨hmem, hraster, hstatus, hguard⟩, hcart⟩, hp, hnmi⟩
    exact ⟨hram, hmem, hcart, hp, hraster, hstatus, hguard, hnmi⟩

/-! ## Bus accesses -/

/-- Clearing bits of STATUS leaves no bit but verticalBlank. -/
theorem ppuStatusOk_and {u u' : Ppu} {m : Byte} (h : ppuStatusOk u = true) (e : u'.status = u.status &&& m) :
    ppuStatusOk u' = true := by
  have h0 : u.status &&& 0x7F = 0 := by simpa [ppuStatusOk] using h
  have : u.status &&& m &&& 0x7F = 0 := by
    rw [BitVec.and_assoc, BitVec.and_comm m, ← BitVec.and_assoc, h0]
    exact BitVec.zero_and
  simpa [ppuStatusOk, e] using this

theorem memRead_machineOk (a : Word) {s : State} (h : MachineOk s) : MachineOk (memRead a s).2 where
  ram := by rw [memRead_ram_eq]; exact h.ram
  cart := by rw [memRead_cart]; exact h.cart
  ppu := by
    rcases memRead_ppu_cases a s with e | e | ⟨b, e⟩ <;> rw [e]
    · exact h.ppu
    · exact ⟨h.ppu.memories, h.ppu.raster, ppuStatusOk_and h.ppu.status rfl, h.ppu.guard⟩
    · exact ⟨h.ppu.memories, h.ppu.raster, h.ppu.status, h.ppu.guard⟩

/-- A port write changes neither the raster nor STATUS nor the guard. -/
theorem portWrite_ppuOk {cart : Option Cartridge} {u : Ppu} (i : Port) (d : Byte) (h : PpuOk u)
    (hc : cartOk cart = true) : PpuOk (portWrite cart u i d).2 := by
  have hmem := (portWrite_ok i d h.memories hc).1
  rcases portWrite_cases cart u i d with ⟨_, _, _, _, _, _, _, _, e⟩ | ⟨-, v, e⟩ <;> rw [e] at hmem ⊢
  · exact ⟨hmem, h.raster, h.status, h.guard⟩
  · rw [ppuWrite_frame] at hmem ⊢
    exact ⟨hmem, h.raster, h.status, h.guard⟩

theorem memWrite_machineOk (a : Word) (d : Byte) {s : State} (h : MachineOk s) : MachineOk (memWrite a d s) := by
  obtain ⟨hram, -, hcart⟩ := memWrite_ok a d h.ram h.ppu.memories h.cart
  refine ⟨hram, ?_, hcart⟩
  rcases memWrite_cases a d s with ⟨-, e⟩ | ⟨-, -, i, -, e⟩ | ⟨-, e⟩ <;> rw [e]
  · exact h.ppu
  · exact portWrite_ppuOk i d h.ppu h.cart
  · exact h.ppu

theorem Moves.machineOk {i : Instr} {s t : State} (h : Moves i s t) (hs : MachineOk s) : MachineOk t := by
  induction h with
  | refl => exact hs
  | read _ a ih => exact memRead_machineOk a ih
  | write _ a d ih => exact memWrite_machineOk a d ih
  | cpu _ c hc ih => exact ⟨ih.ram, ih.ppu, ih.cart⟩

/-- Moves keep the invariant when they leave Break and Reserved 0. -/
theorem Moves.inv {i : Instr} {s t : State} (h : Moves i s t) (hs : s.Inv) (ht : statusRegisterOk t.cpu = true) :
    t.Inv := by
  obtain ⟨hok, -, hnmi⟩ := (inv_iff s).1 hs
  have hlatch : t.ppu.nmiPending = s.ppu.nmiPending := (congrArg Ppu.nmiPending h.keeps_romAndRaster.2 :)
  exact (inv_iff t).2 ⟨h.machineOk hok, ht, hlatch.trans hnmi⟩

/-! ## The CPU's part of a tick -/

/-- An instruction that keeps the bits outside a mask without Break and Reserved keeps those two. -/
theorem breakReserved_of_mask {p q m : Byte} (h : q &&& ~~~m = p &&& ~~~m) (hm : ~~~m &&& 0x30 = 0x30) :
    q &&& 0x30 = p &&& 0x30 := by
  rw [← hm, ← BitVec.and_assoc, h, BitVec.and_assoc]

/-- Only PLP and RTI write Break and Reserved. -/
theorem flagMask_breakReserved (i : Instr) : (i = .plp ∨ i = .rti) ∨ ~~~flagMask i &&& 0x30 = 0x30 := by
  cases i <;> simp [flagMask]

theorem statusRegisterOk_iff (c : Cpu) : statusRegisterOk c = true ↔ c.p &&& 0x30 = 0 := by simp [statusRegisterOk]

theorem Moves.statusRegisterOk {i : Instr} {s t : State} (h : Moves i s t) (hi : ~~~flagMask i &&& 0x30 = 0x30)
    (hs : Machine.statusRegisterOk s.cpu = true) : Machine.statusRegisterOk t.cpu = true := by
  rw [statusRegisterOk_iff] at hs ⊢
  exact (breakReserved_of_mask h.cpuFrame.flags hi).trans hs

theorem exec_inv {i : Instr} {s t : State} (hs : s.Inv) (h : exec i s = .next t) : t.Inv := by
  refine (exec_moves h).inv hs ?_
  rcases flagMask_breakReserved i with hi | hi
  · obtain ⟨n, -, rfl⟩ := exec_next h
    rw [statusRegisterOk_iff]
    rcases hi with rfl | rfl
    · exact plp_breakReserved _
    · exact rti_breakReserved _
  · exact (exec_moves h).statusRegisterOk hi ((inv_iff s).1 hs).2.1

/-- A fetch reads the bus and moves `PC`: moves that BRK may make. -/
theorem Moves.fetch {s t : State} (h : Moves .brk s t) : Moves .brk s (Machine.fetch t).2 := (h.read _).setPc _

theorem fetchInstr_moves (s : State) : Moves .brk s (fetchInstr s).2 := by
  have h : Moves .brk s s := .refl
  unfold fetchInstr
  dsimp only
  split
  · exact h.fetch
  · exact h.fetch.fetch
  · exact h.fetch.fetch.fetch

theorem cpuStep_inv {s t : State} (hs : s.Inv) (h : cpuStep s = .next t) : t.Inv := by
  have hfetch := fetchInstr_moves s
  exact exec_inv (hfetch.inv hs (hfetch.statusRegisterOk (by decide) ((inv_iff s).1 hs).2.1)) h

/-! ## `PpuStep` -/

theorem clearFlags_ok {u : Ppu} (h : PpuOk u) : PpuOk (clearFlags u) :=
  ⟨h.memories, h.raster, ppuStatusOk_and h.status rfl, h.guard⟩

theorem setVblank_ok {u : Ppu} (h : PpuOk u) : PpuOk (setVblank u) := by
  refine ⟨h.memories, h.raster, ?_, h.guard⟩
  have hbits : (u.status ||| 0x80) &&& 0x7F = u.status &&& 0x7F := by
    generalize u.status = b
    revert b
    decide +kernel
  rw [← h.status]
  exact congrArg (· == 0) hbits

theorem flagEvents_ok {u : Ppu} (h : PpuOk u) : PpuOk (flagEvents u) := by
  unfold flagEvents
  split
  · exact clearFlags_ok h
  · split
    · exact setVblank_ok h
    · exact h

/-- A colour index has 6 bits. -/
theorem pixelColour_lt (g : Config.RenderGating) (u : Ppu) : (pixelColour g u).toNat < 64 := by
  rw [pixelColour, BitVec.toNat_and]
  exact Nat.lt_of_le_of_lt Nat.and_le_right (by decide)

theorem frameBufferOk_storeByte {m : Memory} {a : Nat} {b : Byte} (ha : a < 0xF000) (hb : b.toNat < 64)
    (h : frameBufferOk m = true) : frameBufferOk (storeByte m a b) = true := by
  simp only [frameBufferOk, Bool.and_eq_true, List.all_eq_true, decide_eq_true_eq] at h ⊢
  refine ⟨memoryOk_storeByte b ha h.1, fun c hc => ?_⟩
  rcases mem_storeByte hc with rfl | hc
  · exact hb
  · exact h.2 c hc

theorem pixelOutput_ok (g : Config.RenderGating) {u : Ppu} (h : PpuOk u) : PpuOk (pixelOutput g u) := by
  unfold pixelOutput
  split
  · next hd =>
    refine ⟨?_, h.raster, h.status, h.guard⟩
    have hm := h.memories
    simp only [ppuMemoriesOk, Bool.and_eq_true] at hm ⊢
    exact ⟨hm.1, frameBufferOk_storeByte (by omega) (pixelColour_lt g u) hm.2⟩
  · exact h

theorem fetchPhase_ok (cart : Option Cartridge) (phase : Nat) {u : Ppu} (h : PpuOk u) :
    PpuOk (fetchPhase cart phase u) := by
  unfold fetchPhase
  split <;> exact ⟨h.memories, h.raster, h.status, h.guard⟩

theorem fetchWork_ok (cart : Option Cartridge) {u : Ppu} (h : PpuOk u) : PpuOk (fetchWork cart u) := by
  unfold fetchWork
  split
  · exact fetchPhase_ok cart _ ⟨h.memories, h.raster, h.status, h.guard⟩
  · exact h

theorem scrollWork_ok {u : Ppu} (h : PpuOk u) : PpuOk (scrollWork u) := by
  unfold scrollWork
  repeat' split
  all_goals exact ⟨h.memories, h.raster, h.status, h.guard⟩

theorem redundantFetch_ok (cart : Option Cartridge) {u : Ppu} (h : PpuOk u) : PpuOk (redundantFetch cart u) := by
  unfold redundantFetch
  split
  · exact ⟨h.memories, h.raster, h.status, h.guard⟩
  · exact h

theorem pipelineWork_ok (g : Config.RenderGating) (cart : Option Cartridge) {u : Ppu} (h : PpuOk u) :
    PpuOk (pipelineWork g cart u) := by
  unfold pipelineWork
  split
  · exact redundantFetch_ok cart (scrollWork_ok (fetchWork_ok cart h))
  · exact h

/-- The raster stays on the 341 x 262 grid. -/
theorem advance_ok {u : Ppu} (h : PpuOk u) : PpuOk (advance u) := by
  have hraster := h.raster
  simp only [rasterOk, Bool.and_eq_true, decide_eq_true_eq] at hraster
  unfold advance
  split
  · refine ⟨h.memories, ?_, h.status, h.guard⟩
    simp only [rasterOk, Bool.and_eq_true, decide_eq_true_eq]
    split <;> omega
  · refine ⟨h.memories, ?_, h.status, h.guard⟩
    simp only [rasterOk, Bool.and_eq_true, decide_eq_true_eq]
    omega

theorem ppuStep_ok (g : Config.RenderGating) (cart : Option Cartridge) {u : Ppu} (h : PpuOk u) :
    PpuOk (ppuStep g cart u) :=
  advance_ok (pipelineWork_ok g cart (pixelOutput_ok g (flagEvents_ok h)))

/-! ## The tick -/

/-- An NMI entry is made of moves that BRK may make. -/
theorem cpuNmi_moves (s : State) : Moves .brk s (cpuNmi s) := (Moves.refl.interrupt nmiVector).addCyc _

/-- The invariant does not speak of the tick count and the countdown. -/
theorem inv_withCounters {s : State} (tick wait : Nat) (h : s.Inv) : State.Inv { s with tick := tick, wait := wait } := h

/-- The poll clears the NMI latch, so the invariant holds after it. -/
theorem pollNmi_inv (p : Config.Params) {s : State} (hok : MachineOk s) (hp : statusRegisterOk s.cpu = true) :
    (pollNmi p s).Inv := by
  unfold pollNmi
  split
  · have hclear : State.Inv { s with ppu := { s.ppu with nmiPending := false } } :=
      (inv_iff _).2 ⟨⟨hok.ram, ⟨hok.ppu.memories, hok.ppu.raster, hok.ppu.status, hok.ppu.guard⟩, hok.cart⟩, hp, rfl⟩
    have hentry := (cpuNmi_moves _).inv hclear ((cpuNmi_moves _).statusRegisterOk (by decide) hp)
    unfold waitForNmi
    split
    · exact hentry
    · exact inv_withCounters _ _ hentry
  · next hnmi => exact (inv_iff s).2 ⟨hok, hp, by simpa using hnmi⟩

theorem stepPpu_ok (p : Config.Params) {s : State} (h : MachineOk s) : MachineOk (stepPpu p s) :=
  ⟨h.ram, ppuStep_ok p.renderGating s.cart h.ppu, h.cart⟩

/-- A next state after `mapNext` is the function of a next state before it. -/
theorem mapNext_eq_next {f : State → State} {o : Out} {t : State} (h : mapNext f o = .next t) :
    ∃ u, o = .next u ∧ t = f u := by
  cases o with
  | next u => exact ⟨u, rfl, by simpa [mapNext] using h.symm⟩
  | fault r => cases h
  | refused r => cases h

theorem cpuSlot_inv (p : Config.Params) {s t : State} (hs : s.Inv) (h : cpuSlot p s = .next t) : t.Inv := by
  unfold cpuSlot at h
  split at h
  · exact cpuStep_inv hs h
  · split at h
    · obtain ⟨u, hu, rfl⟩ := mapNext_eq_next h
      exact inv_withCounters _ _ (cpuStep_inv hs hu)
    · cases h
      exact inv_withCounters _ _ hs

/-- Every tick keeps the invariant, under every choice of pacing, phase and gating. -/
theorem masterTick_inv (p : Config.Params) {s t : State} (hs : s.Inv) (h : masterTick p s = .next t) : t.Inv := by
  obtain ⟨hok, hp, -⟩ := (inv_iff s).1 hs
  have hpolled : (pollNmi p (stepPpu p s)).Inv := pollNmi_inv p (stepPpu_ok p hok) hp
  unfold masterTick at h
  dsimp only at h
  split at h
  · obtain ⟨u, hu, rfl⟩ := mapNext_eq_next h
    exact inv_withCounters _ _ (cpuSlot_inv p hpolled hu)
  · cases h
    exact inv_withCounters _ _ hpolled

end Sys2Proof.Machine
end

section

namespace Sys2Proof.Proofs

open Sys2Proof.Machine

/-- Settles O12: the step is a tick, and every part of a tick keeps the invariant. -/
theorem stepKeepsTheMachineInvariant : Obligations.StepKeepsTheMachineInvariant := by
  unfold Obligations.StepKeepsTheMachineInvariant
  intro s t hs h
  exact masterTick_inv Config.params hs h

end Sys2Proof.Proofs
end

section
/-! SUPPORT. Two states that agree but for the parts no rule reads, and that every operation of a step takes such states to
such states, with the same bytes and addresses. -/

namespace Sys2Proof.Machine

open Sys2Proof.Claims

/-- A PPU without the parts no rule reads: the PPU's side of `forgetUnread`. -/
def forgetUnreadPpu (u : Ppu) : Ppu :=
  { u with oddFrame := false, ignoreCtrlWrites := false, oamAddr := 0, oamData := 0, fb := [] }

/-- Two states that differ at most in the parts no rule reads (`agree_iff`). -/
structure Agree (s s' : State) : Prop where
  a : s.cpu.a = s'.cpu.a
  x : s.cpu.x = s'.cpu.x
  y : s.cpu.y = s'.cpu.y
  sp : s.cpu.sp = s'.cpu.sp
  pc : s.cpu.pc = s'.cpu.pc
  p : s.cpu.p = s'.cpu.p
  ppu : forgetUnreadPpu s.ppu = forgetUnreadPpu s'.ppu
  ram : s.ram = s'.ram
  cart : s.cart = s'.cart
  tick : s.tick = s'.tick

theorem agree_iff (s s' : State) : Agree s s' ↔ forgetUnread s = forgetUnread s' := by
  constructor
  · rintro ⟨ha, hx, hy, hsp, hpc, hp, hppu, hram, hcart, htick⟩
    unfold forgetUnreadPpu at hppu
    simp only [forgetUnread, ha, hx, hy, hsp, hpc, hp, hppu, hram, hcart, htick]
  · intro h
    have hcpu := congrArg State.cpu h
    exact ⟨(congrArg Cpu.a hcpu :), (congrArg Cpu.x hcpu :), (congrArg Cpu.y hcpu :), (congrArg Cpu.sp hcpu :),
      (congrArg Cpu.pc hcpu :), (congrArg Cpu.p hcpu :), congrArg State.ppu h, (congrArg State.ram h :),
      (congrArg State.cart h :), (congrArg State.tick h :)⟩

/-- Two answers with one value and states that agree. -/
structure AgreeOn {α : Type} (r r' : α × State) : Prop where
  val : r.1 = r'.1
  state : Agree r.2 r'.2

/-! ## The ports -/

/-- A port read neither reads nor changes the unread parts. -/
theorem portRead_forgetUnread (cart : Option Cartridge) (u : Ppu) (i : Port) :
    portRead cart (forgetUnreadPpu u) i = ((portRead cart u i).1, forgetUnreadPpu (portRead cart u i).2) := by
  cases i with
  | data =>
    simp only [portRead, readData]
    change (if (vramAddr u).toNat < 0x3F00 then _ else _) = _
    split <;> rfl
  | _ => rfl

theorem portRead_congr {cart cart' : Option Cartridge} {u u' : Ppu} (i : Port) (hc : cart = cart')
    (h : forgetUnreadPpu u = forgetUnreadPpu u') :
    (portRead cart u i).1 = (portRead cart' u' i).1 ∧
      forgetUnreadPpu (portRead cart u i).2 = forgetUnreadPpu (portRead cart' u' i).2 := by
  subst hc
  have e := portRead_forgetUnread cart u i
  rw [h, portRead_forgetUnread] at e
  exact ⟨(congrArg Prod.fst e).symm, (congrArg Prod.snd e).symm⟩

/-- A write in the PPU space does not read the unread parts. -/
theorem ppuWrite_forgetUnread (cart : Option Cartridge) (u : Ppu) (a : Word) (d : Byte) :
    ppuWrite cart (forgetUnreadPpu u) a d = ((ppuWrite cart u a d).1, forgetUnreadPpu (ppuWrite cart u a d).2) := by
  have internal : ∀ (c : Option Cartridge) (b : Word),
      ppuInternalWrite c (forgetUnreadPpu u) b d = forgetUnreadPpu (ppuInternalWrite c u b d) := by
    intro c b
    unfold ppuInternalWrite
    split
    · rfl
    · split
      · split <;> rfl
      · rfl
  unfold ppuWrite
  rcases cart with _ | c
  · simp only [internal]
  · dsimp only
    split
    · rfl
    · simp only [internal]

/-- A port write does not read the unread parts. -/
theorem portWrite_forgetUnread (cart : Option Cartridge) (u : Ppu) (i : Port) (d : Byte) :
    (portWrite cart (forgetUnreadPpu u) i d).1 = (portWrite cart u i d).1 ∧
      forgetUnreadPpu (portWrite cart (forgetUnreadPpu u) i d).2 = forgetUnreadPpu (portWrite cart u i d).2 := by
  cases i with
  | data =>
    have e := ppuWrite_forgetUnread cart u (vramAddr u) d
    exact ⟨(congrArg Prod.fst e :), (congrArg (fun r => forgetUnreadPpu (advanceV r.2)) e :)⟩
  | scroll =>
    refine ⟨rfl, ?_⟩
    simp only [portWrite, writeScroll]
    change forgetUnreadPpu (if u.w = true then _ else _) = _
    split <;> rfl
  | addr =>
    refine ⟨rfl, ?_⟩
    simp only [portWrite, writeAddr]
    change forgetUnreadPpu (if u.w = true then _ else _) = _
    split <;> rfl
  | _ => exact ⟨rfl, rfl⟩

theorem portWrite_congr {cart cart' : Option Cartridge} {u u' : Ppu} (i : Port) (d : Byte) (hc : cart = cart')
    (h : forgetUnreadPpu u = forgetUnreadPpu u') :
    (portWrite cart u i d).1 = (portWrite cart' u' i d).1 ∧
      forgetUnreadPpu (portWrite cart u i d).2 = forgetUnreadPpu (portWrite cart' u' i d).2 := by
  subst hc
  obtain ⟨hcart, hppu⟩ := portWrite_forgetUnread cart u i d
  obtain ⟨hcart', hppu'⟩ := portWrite_forgetUnread cart u' i d
  rw [← hcart, ← hppu, h]
  exact ⟨hcart', hppu'⟩

namespace Agree

variable {s s' : State}

/-! ## Bus accesses -/

theorem memRead (h : Agree s s') (a : Word) : AgreeOn (Machine.memRead a s) (Machine.memRead a s') := by
  rcases memRead_cases a s with ⟨hlow, e⟩ | ⟨hlow, hhigh, i, hi, e⟩ | ⟨hhigh, e⟩
  · rw [e, memRead_ram hlow, h.ram]
    exact ⟨rfl, h⟩
  · rw [e, memRead_port hlow hhigh, ← hi]
    obtain ⟨hval, hppu⟩ := portRead_congr i h.cart h.ppu
    exact ⟨hval, { h with ppu := hppu }⟩
  · refine ⟨memRead_high_congr hhigh h.cart, ?_⟩
    rwa [e, memRead_above hhigh]

theorem memWrite (h : Agree s s') (a : Word) {d d' : Byte} (hd : d = d') :
    Agree (Machine.memWrite a d s) (Machine.memWrite a d' s') := by
  subst hd
  rcases memWrite_cases a d s with ⟨hlow, e⟩ | ⟨hlow, hhigh, i, hi, e⟩ | ⟨hhigh, e⟩
  · rw [e, memWrite_ram hlow]
    exact { h with ram := congrArg (storeByte · _ d) h.ram }
  · rw [e, memWrite_port hlow hhigh, ← hi]
    obtain ⟨hcart, hppu⟩ := portWrite_congr i d h.cart h.ppu
    exact { h with cart := hcart, ppu := hppu }
  · rwa [e, memWrite_high hhigh]

/-! ## Register updates -/

theorem setA (h : Agree s s') {v v' : Byte} (hv : v = v') : Agree (s.setA v) (s'.setA v') := { h with a := hv }
theorem setX (h : Agree s s') {v v' : Byte} (hv : v = v') : Agree (s.setX v) (s'.setX v') := { h with x := hv }
theorem setY (h : Agree s s') {v v' : Byte} (hv : v = v') : Agree (s.setY v) (s'.setY v') := { h with y := hv }
theorem setSp (h : Agree s s') {v v' : Byte} (hv : v = v') : Agree (s.setSp v) (s'.setSp v') := { h with sp := hv }
theorem setPc (h : Agree s s') {v v' : Word} (hv : v = v') : Agree (s.setPc v) (s'.setPc v') := { h with pc := hv }
theorem setP (h : Agree s s') {v v' : Byte} (hv : v = v') : Agree (s.setP v) (s'.setP v') := { h with p := hv }
theorem addCyc (h : Agree s s') (n n' : Nat) : Agree (s.addCyc n) (s'.addCyc n') := { h with }
theorem markMia (h : Agree s s') : Agree s.markMia s'.markMia := { h with }

theorem setFlag (h : Agree s s') (k : Nat) {v v' : Bool} (hv : v = v') :
    Agree (s.setP (setBit s.cpu.p k v)) (s'.setP (setBit s'.cpu.p k v')) := h.setP (by rw [h.p, hv])

theorem flag (h : Agree s s') (k : Nat) : bitOf s.cpu.p k = bitOf s'.cpu.p k := by rw [h.p]

theorem setZN (h : Agree s s') {v v' : Byte} (hv : v = v') : Agree (Machine.setZN v s) (Machine.setZN v' s') :=
  (h.setFlag 1 (by rw [hv])).setFlag 7 (by rw [hv])

theorem addWithCarry (h : Agree s s') {m m' : Byte} (hm : m = m') :
    Agree (Machine.addWithCarry m s) (Machine.addWithCarry m' s') := by
  have hc : s.flagC = s'.flagC := h.flag 0
  unfold Machine.addWithCarry
  dsimp only
  rw [hm, h.a, hc]
  exact (((h.setFlag 0 rfl).setFlag 6 rfl).setA rfl).setZN rfl

theorem compareBytes (h : Agree s s') {r r' m m' : Byte} (hr : r = r') (hm : m = m') :
    Agree (Machine.compareBytes r m s) (Machine.compareBytes r' m' s') := by
  subst hr hm
  exact (h.setFlag 0 rfl).setZN rfl

theorem bitTest (h : Agree s s') {m m' : Byte} (hm : m = m') : Agree (Machine.bitTest m s) (Machine.bitTest m' s') := by
  subst hm
  exact ((h.setFlag 1 (by rw [h.a])).setFlag 7 rfl).setFlag 6 rfl

/-! ## Operands -/

theorem indexed (h : Agree s s') {base base' : Word} {index index' : Byte} (hb : base = base') (hi : index = index') :
    AgreeOn (Machine.indexed base index s) (Machine.indexed base' index' s') := by
  subst hb hi
  refine ⟨rfl, ?_⟩
  unfold Machine.indexed
  dsimp only
  split
  · exact h.addCyc 1 1
  · exact h

theorem zeroPagePointer (h : Agree s s') {d d' : Byte} (hd : d = d') :
    AgreeOn (Machine.zeroPagePointer d s) (Machine.zeroPagePointer d' s') := by
  rw [zeroPagePointer_eq, zeroPagePointer_eq, h.ram, hd]
  exact ⟨rfl, h⟩

theorem indirectPointer (h : Agree s s') (a : Word) :
    AgreeOn (Machine.indirectPointer a s) (Machine.indirectPointer a s') := by
  have lo := h.memRead a
  have hi := lo.state.memRead (wordOf (hiByte a) (loByte a + 1))
  exact ⟨congrArg₂ wordOf hi.val lo.val, hi.state⟩

theorem effAddr (h : Agree s s') (o : Operand) : AgreeOn (Machine.effAddr o s) (Machine.effAddr o s') := by
  cases o with
  | imp | acc | zp d | abs a => exact ⟨rfl, h⟩
  | imm d => exact ⟨congrArg (fun pc => some (pc - 1)) h.pc, h⟩
  | zpx d => exact ⟨congrArg (fun x => some (zext16 (d + x))) h.x, h⟩
  | zpy d => exact ⟨congrArg (fun y => some (zext16 (d + y))) h.y, h⟩
  | rel d => exact ⟨congrArg (fun pc => some (pc + sext16 d)) h.pc, h⟩
  | abx a =>
    have r := h.indexed (base := a) rfl h.x
    exact ⟨congrArg some r.val, r.state⟩
  | aby a =>
    have r := h.indexed (base := a) rfl h.y
    exact ⟨congrArg some r.val, r.state⟩
  | izx d =>
    have r := h.zeroPagePointer (congrArg (d + ·) h.x)
    exact ⟨congrArg some r.val, r.state⟩
  | izy d =>
    have base := h.zeroPagePointer (Eq.refl d)
    have r := base.state.indexed base.val h.y
    exact ⟨congrArg some r.val, r.state⟩
  | ind a =>
    have r := h.indirectPointer a
    exact ⟨congrArg some r.val, r.state⟩

theorem readOperand (h : Agree s s') (o : Operand) : AgreeOn (Machine.readOperand o s) (Machine.readOperand o s') := by
  unfold Machine.readOperand
  split
  · exact ⟨rfl, h⟩
  · obtain ⟨hea, hs⟩ := h.effAddr o
    dsimp only
    rw [hea]
    split
    · exact hs.memRead _
    · exact ⟨hs.a, hs⟩

theorem writeOperand (h : Agree s s') (o : Operand) {v : State → Byte} (hv : ∀ {t t' : State}, Agree t t' → v t = v t') :
    Agree (Machine.writeOperand o v s) (Machine.writeOperand o v s') := by
  obtain ⟨hea, hs⟩ := h.effAddr o
  unfold Machine.writeOperand
  dsimp only
  rw [hea]
  split
  · exact hs.memWrite _ (hv hs)
  · exact hs.setA (hv hs)

theorem modifyOperand (h : Agree s s') (o : Operand) {f f' : Byte → Byte} {flags : Byte → State → State} (hf : f = f')
    (hflags : ∀ {t t' : State} (m : Byte), Agree t t' → Agree (flags m t) (flags m t')) :
    Agree (Machine.modifyOperand o f flags s) (Machine.modifyOperand o f' flags s') := by
  subst hf
  obtain ⟨hea, hs⟩ := h.effAddr o
  unfold Machine.modifyOperand
  dsimp only
  rw [hea]
  split
  · next ea _ =>
    obtain ⟨hm, ht⟩ := hs.memRead ea
    rw [hm]
    exact ((hflags _ ht).memWrite ea rfl).setZN rfl
  · rw [hs.a]
    exact ((hflags _ hs).setA rfl).setZN rfl

theorem logicA (h : Agree s s') (f : Byte → Byte → Byte) (o : Operand) :
    Agree (Machine.logicA f o s) (Machine.logicA f o s') := by
  obtain ⟨hm, ht⟩ := h.readOperand o
  have hr : f (Machine.readOperand o s).2.cpu.a (Machine.readOperand o s).1 =
      f (Machine.readOperand o s').2.cpu.a (Machine.readOperand o s').1 := by rw [hm, ht.a]
  exact (ht.setA hr).setZN hr

/-! ## Control transfer and the stack -/

theorem branch (h : Agree s s') {cond : State → Bool} (o : Operand)
    (hcond : ∀ {t t' : State}, Agree t t' → cond t = cond t') :
    Agree (Machine.branch cond o s) (Machine.branch cond o s') := by
  obtain ⟨hea, hs⟩ := h.effAddr o
  unfold Machine.branch
  dsimp only
  rw [hea, hcond hs, addCyc_pc, addCyc_pc, hs.pc]
  split
  · split
    · split
      · exact ((hs.addCyc 1 1).addCyc 1 1).setPc rfl
      · exact (hs.addCyc 1 1).setPc rfl
    · exact hs
  · exact hs

theorem jumpTo (h : Agree s s') (o : Operand) : Agree (Machine.jumpTo o s) (Machine.jumpTo o s') := by
  obtain ⟨hea, hs⟩ := h.effAddr o
  unfold Machine.jumpTo
  dsimp only
  rw [hea]
  split
  · exact hs.setPc rfl
  · exact hs

theorem push (h : Agree s s') {v v' : Byte} (hv : v = v') : Agree (Machine.push v s) (Machine.push v' s') := by
  unfold Machine.push
  rw [h.sp]
  exact (h.memWrite _ hv).setSp rfl

theorem pop (h : Agree s s') : AgreeOn (Machine.pop s) (Machine.pop s') := by
  have hsp : s.cpu.sp + 1 = s'.cpu.sp + 1 := by rw [h.sp]
  have r := (h.setSp hsp).memRead (stackAddr (s.cpu.sp + 1))
  unfold Machine.pop
  dsimp only
  rw [setSp_sp, setSp_sp]
  rwa [hsp] at r ⊢

theorem callSubroutine (h : Agree s s') (o : Operand) :
    Agree (Machine.callSubroutine o s) (Machine.callSubroutine o s') := by
  obtain ⟨hea, hs⟩ := h.effAddr o
  have hpushed := fun ret : Word => (hs.push (rfl : hiByte ret = _)).push (rfl : loByte ret = _)
  unfold Machine.callSubroutine
  dsimp only
  rw [hea, hs.pc]
  split
  · exact (hpushed _).setPc rfl
  · exact hpushed _

theorem returnFromSubroutine (h : Agree s s') : Agree (Machine.returnFromSubroutine s) (Machine.returnFromSubroutine s') := by
  have lo := h.pop
  have hi := lo.state.pop
  exact hi.state.setPc (congrArg₂ (fun hi lo => wordOf hi lo + 1) hi.val lo.val)

theorem returnFromInterrupt (h : Agree s s') : Agree (Machine.returnFromInterrupt s) (Machine.returnFromInterrupt s') := by
  have status := h.pop
  have lo := (status.state.setP (congrArg pulledP status.val)).pop
  have hi := lo.state.pop
  exact hi.state.setPc (congrArg₂ wordOf hi.val lo.val)

theorem readVector (h : Agree s s') (vec : Word) : AgreeOn (Machine.readVector vec s) (Machine.readVector vec s') := by
  have lo := h.memRead vec
  have hi := lo.state.memRead (vec + 1)
  exact ⟨congrArg₂ wordOf hi.val lo.val, hi.state⟩

theorem interrupt (h : Agree s s') (vec : Word) : Agree (Machine.interrupt vec s) (Machine.interrupt vec s') := by
  have hhi := h.push (congrArg hiByte h.pc)
  have hlo := hhi.push (congrArg loByte hhi.pc)
  have hstatus := hlo.push (congrArg pushedP hlo.p)
  have target := (hstatus.setFlag 2 (rfl : true = true)).readVector vec
  exact target.state.setPc target.val

end Agree

/-! ## Instructions -/

/-- The body of every instruction takes states that agree to states that agree. -/
theorem instrBody_agree (i : Instr) {s s' : State} (h : Agree s s') : Agree (instrBody i s) (instrBody i s') := by
  unfold instrBody
  cases i with
  | lda o => exact ((h.readOperand o).state.setA (h.readOperand o).val).setZN (h.readOperand o).val
  | ldx o => exact ((h.readOperand o).state.setX (h.readOperand o).val).setZN (h.readOperand o).val
  | ldy o => exact ((h.readOperand o).state.setY (h.readOperand o).val).setZN (h.readOperand o).val
  | sta o => exact h.writeOperand o (·.a)
  | stx o => exact h.writeOperand o (·.x)
  | sty o => exact h.writeOperand o (·.y)
  | tax => exact (h.setX h.a).setZN h.a
  | tay => exact (h.setY h.a).setZN h.a
  | txa => exact (h.setA h.x).setZN h.x
  | tya => exact (h.setA h.y).setZN h.y
  | tsx => exact (h.setX h.sp).setZN h.sp
  | txs => exact h.setSp h.x
  | adc o => exact (h.readOperand o).state.addWithCarry (h.readOperand o).val
  | sbc o => exact (h.readOperand o).state.addWithCarry (congrArg (· ^^^ 0xFF) (h.readOperand o).val)
  | and o | ora o | eor o => exact h.logicA _ o
  | bit o => exact (h.readOperand o).state.bitTest (h.readOperand o).val
  | cmp o => exact (h.readOperand o).state.compareBytes (h.readOperand o).state.a (h.readOperand o).val
  | cpx o => exact (h.readOperand o).state.compareBytes (h.readOperand o).state.x (h.readOperand o).val
  | cpy o => exact (h.readOperand o).state.compareBytes (h.readOperand o).state.y (h.readOperand o).val
  | inc o | dec o => exact h.modifyOperand o rfl (fun _ ht => ht)
  | inx => exact (h.setX (congrArg (· + 1) h.x)).setZN (congrArg (· + 1) h.x)
  | iny => exact (h.setY (congrArg (· + 1) h.y)).setZN (congrArg (· + 1) h.y)
  | dex => exact (h.setX (congrArg (· - 1) h.x)).setZN (congrArg (· - 1) h.x)
  | dey => exact (h.setY (congrArg (· - 1) h.y)).setZN (congrArg (· - 1) h.y)
  | asl o | lsr o => exact h.modifyOperand o rfl (fun _ ht => ht.setFlag 0 rfl)
  | rol o => exact h.modifyOperand o (congrArg shiftLeftIn (h.flag 0)) (fun _ ht => ht.setFlag 0 rfl)
  | ror o => exact h.modifyOperand o (congrArg shiftRightIn (h.flag 0)) (fun _ ht => ht.setFlag 0 rfl)
  | jmp o => exact h.jumpTo o
  | jsr o => exact h.callSubroutine o
  | rts => exact h.returnFromSubroutine
  | bpl o => exact h.branch o (fun ht => congrArg (!·) (ht.flag 7))
  | bmi o => exact h.branch o (·.flag 7)
  | bvc o => exact h.branch o (fun ht => congrArg (!·) (ht.flag 6))
  | bvs o => exact h.branch o (·.flag 6)
  | bcc o => exact h.branch o (fun ht => congrArg (!·) (ht.flag 0))
  | bcs o => exact h.branch o (·.flag 0)
  | bne o => exact h.branch o (fun ht => congrArg (!·) (ht.flag 1))
  | beq o => exact h.branch o (·.flag 1)
  | pha => exact h.push h.a
  | php => exact h.push (congrArg pushedP h.p)
  | pla => exact (h.pop.state.setA h.pop.val).setZN h.pop.val
  | plp => exact h.pop.state.setP (congrArg pulledP h.pop.val)
  | clc | sec => exact h.setFlag 0 rfl
  | cli | sei => exact h.setFlag 2 rfl
  | cld | sed => exact h.setFlag 3 rfl
  | clv => exact h.setFlag 6 rfl
  | nop => exact h
  | rti => exact h.returnFromInterrupt
  | brk => exact (h.setPc (congrArg (· + 1) h.pc)).interrupt irqVector
  | mia op o => exact (h.effAddr o).state.markMia

theorem exec_agree {i : Instr} {s s' t t' : State} (h : Agree s s') (ht : exec i s = .next t)
    (ht' : exec i s' = .next t') : Agree t t' := by
  obtain ⟨n, -, rfl⟩ := exec_next ht
  obtain ⟨n', -, rfl⟩ := exec_next ht'
  exact instrBody_agree i (h.addCyc n n')

theorem Agree.fetch {s s' : State} (h : Agree s s') : AgreeOn (Machine.fetch s) (Machine.fetch s') := by
  rw [fetch_eq, fetch_eq, h.pc]
  exact ⟨(h.memRead _).val, (h.memRead _).state.setPc rfl⟩

theorem Agree.fetchInstr {s s' : State} (h : Agree s s') : AgreeOn (Machine.fetchInstr s) (Machine.fetchInstr s') := by
  have op := h.fetch
  have b1 := op.state.fetch
  have b2 := b1.state.fetch
  unfold Machine.fetchInstr
  dsimp only
  rw [op.val, b1.val, b2.val]
  split
  · exact ⟨rfl, op.state⟩
  · exact ⟨rfl, b1.state⟩
  · exact ⟨rfl, b2.state⟩

theorem cpuStep_agree {s s' t t' : State} (h : Agree s s') (ht : cpuStep s = .next t) (ht' : cpuStep s' = .next t') :
    Agree t t' := by
  obtain ⟨hi, hs⟩ := h.fetchInstr
  unfold cpuStep at ht ht'
  dsimp only at ht ht'
  rw [hi] at ht
  exact exec_agree hs ht ht'

/-! ## `PpuStep` -/

theorem flagEvents_forgetUnread (u : Ppu) :
    forgetUnreadPpu (flagEvents (forgetUnreadPpu u)) = forgetUnreadPpu (flagEvents u) := by
  unfold flagEvents
  change forgetUnreadPpu (if u.scanline = 261 ∧ u.dot = 1 then _ else if u.scanline = 241 ∧ u.dot = 1 then _ else _) = _
  split
  · rfl
  · split <;> rfl

/-- Pixel output writes the frame buffer alone, which no rule reads. -/
theorem pixelOutput_forgetUnread (g : Config.RenderGating) (u : Ppu) :
    forgetUnreadPpu (pixelOutput g u) = forgetUnreadPpu u := by
  unfold pixelOutput
  split <;> rfl

theorem fetchWork_forgetUnread (cart : Option Cartridge) (u : Ppu) :
    fetchWork cart (forgetUnreadPpu u) = forgetUnreadPpu (fetchWork cart u) := by
  unfold fetchWork
  change (if fetchDot u.dot = true then fetchPhase cart ((u.dot - 1) % 8) _ else _) = _
  split
  · unfold fetchPhase
    split <;> rfl
  · rfl

theorem scrollWork_forgetUnread (u : Ppu) : scrollWork (forgetUnreadPpu u) = forgetUnreadPpu (scrollWork u) := by
  unfold scrollWork
  change (if u.dot = 256 then _ else if u.dot = 257 then _
    else if u.scanline = 261 ∧ 280 ≤ u.dot ∧ u.dot ≤ 304 then _ else _) = _
  split
  · rfl
  · split
    · rfl
    · split <;> rfl

theorem redundantFetch_forgetUnread (cart : Option Cartridge) (u : Ppu) :
    redundantFetch cart (forgetUnreadPpu u) = forgetUnreadPpu (redundantFetch cart u) := by
  unfold redundantFetch
  change (if u.dot = 337 ∨ u.dot = 339 then _ else _) = _
  split <;> rfl

theorem pipelineWork_forgetUnread (g : Config.RenderGating) (cart : Option Cartridge) (u : Ppu) :
    pipelineWork g cart (forgetUnreadPpu u) = forgetUnreadPpu (pipelineWork g cart u) := by
  unfold pipelineWork
  rw [fetchWork_forgetUnread, scrollWork_forgetUnread, redundantFetch_forgetUnread]
  change (if (renderLine u.scanline && rendering g u) = true then _ else _) = _
  split <;> rfl

theorem advance_forgetUnread (u : Ppu) : advance (forgetUnreadPpu u) = forgetUnreadPpu (advance u) := by
  unfold advance
  change (if u.dot + 1 > 340 then _ else _) = _
  split <;> rfl

/-- A dot does not read the unread parts. -/
theorem ppuStep_forgetUnread (g : Config.RenderGating) (cart : Option Cartridge) (u : Ppu) :
    forgetUnreadPpu (ppuStep g cart u) =
      advance (pipelineWork g cart (forgetUnreadPpu (flagEvents (forgetUnreadPpu u)))) := by
  rw [ppuStep, ← advance_forgetUnread, ← pipelineWork_forgetUnread, pixelOutput_forgetUnread, flagEvents_forgetUnread]

/-! ## The tick -/

theorem Agree.stepPpu {s s' : State} (h : Agree s s') (p : Config.Params) :
    Agree (Machine.stepPpu p s) (Machine.stepPpu p s') := by
  refine { h with ppu := ?_ }
  change forgetUnreadPpu (ppuStep _ s.cart s.ppu) = forgetUnreadPpu (ppuStep _ s'.cart s'.ppu)
  rw [ppuStep_forgetUnread, ppuStep_forgetUnread, h.ppu, h.cart]

theorem Agree.pollNmi {s s' : State} (h : Agree s s') :
    Agree (Machine.pollNmi Config.params s) (Machine.pollNmi Config.params s') := by
  have hlatch : s.ppu.nmiPending = s'.ppu.nmiPending := (congrArg Ppu.nmiPending h.ppu :)
  have hclear : Agree { s with ppu := { s.ppu with nmiPending := false } }
      { s' with ppu := { s'.ppu with nmiPending := false } } :=
    { h with ppu := (congrArg (fun u : Ppu => { u with nmiPending := false }) h.ppu :) }
  unfold Machine.pollNmi
  rw [hlatch]
  split
  · exact (hclear.interrupt nmiVector).addCyc _ _
  · exact h

/-- A tick under the default parameters takes states that agree to states that agree. -/
theorem step_agree {s s' t t' : State} (h : Agree s s') (ht : step s = .next t) (ht' : step s' = .next t') :
    Agree t t' := by
  have hpolled := (h.stepPpu Config.params).pollNmi
  have count : ∀ {u u' : State}, Agree u u' → Agree (countTick u) (countTick u') := fun hu =>
    { hu with tick := congrArg (· + 1) hu.tick }
  unfold step masterTick at ht ht'
  dsimp only at ht ht'
  rw [hpolled.tick] at ht
  split at ht
  · next hcpu =>
    rw [if_pos hcpu] at ht'
    obtain ⟨u, hu, rfl⟩ := mapNext_eq_next ht
    obtain ⟨u', hu', rfl⟩ := mapNext_eq_next ht'
    exact count (cpuStep_agree hpolled hu hu')
  · next hcpu =>
    rw [if_neg hcpu] at ht'
    cases ht
    cases ht'
    exact count hpolled

end Sys2Proof.Machine
end

section

namespace Sys2Proof.Proofs

open Sys2Proof.Machine

/-- Settles O15: states that agree but for the unread parts step to states that agree. -/
theorem unreadStateInfluencesNothing : Obligations.UnreadStateInfluencesNothing := by
  unfold Obligations.UnreadStateInfluencesNothing
  intro s s' t t' h ht ht'
  exact (agree_iff t t').1 (step_agree ((agree_iff s s').2 h) ht ht')

end Sys2Proof.Proofs
end

section
/-! SUPPORT. The fetch of an instruction as reads of the bus, and the CPU reset as two reads of PRG. -/

namespace Sys2Proof.Machine

/-! ## The fetch -/

/-- A read after `PC` has moved answers the same byte and leaves the same state but for `PC`. -/
theorem memRead_setPc (a pc : Word) (s : State) :
    memRead a (s.setPc pc) = ((memRead a s).1, (memRead a s).2.setPc pc) := by
  rw [State.setPc, memRead_withCpu, State.setPc, memRead_cpu]

/-- A fetch after a fetch reads at the moved `PC`. -/
theorem fetch_setPc (pc : Word) (s : State) :
    fetch (s.setPc pc) = ((memRead pc s).1, (memRead pc s).2.setPc (pc + 1)) := by
  rw [fetch_eq, setPc_pc, memRead_setPc]; rfl

/-! ## The cartridge slot -/

/-- A read of the upper PRG window with a cartridge attached answers a byte of the last bank and changes nothing. -/
theorem memRead_upperWindow {s : State} {c : Cartridge} {prg chr : List Memory} {a : Word} (hs : s.cart = some c)
    (hm : c.mapper = .mapper0 prg chr) (ha : 0xC000 ≤ a.toNat) :
    memRead a s = (bankByte prg (upperBank prg) (a &&& 0x3FFF).toNat, s) := by
  simp only [memRead, hs, Option.bind_some, hm, cpuReadMap, if_pos ha]

/-- The upper window shows the last bank. -/
theorem bankByte_upperBank (prg : List Memory) (i : Nat) : bankByte prg (upperBank prg) i = byteAt (prg.getLastD []) i := by
  have hlast : prg.getD (upperBank prg) [] = prg.getLastD [] := by
    rw [List.getLastD_eq_getLast?, List.getLast?_eq_getElem?, List.getD_eq_getElem?_getD]
    rcases prg with _ | ⟨b, _ | ⟨b', bs⟩⟩ <;> rfl
  rw [bankByte, hlast]

/-- The CPU reset with a cartridge attached: the registers of R441 with `PC` from the end of the last PRG bank. -/
theorem cpuReset_attached {s : State} {c : Cartridge} {prg chr : List Memory} (hs : s.cart = some c)
    (hm : c.mapper = .mapper0 prg chr) :
    cpuReset s =
      { s with cpu := Cpu.reset (wordOf (byteAt (prg.getLastD []) 0x3FFD) (byteAt (prg.getLastD []) 0x3FFC)) } := by
  have lo : memRead resetVector s = (byteAt (prg.getLastD []) 0x3FFC, s) := by
    rw [memRead_upperWindow hs hm (by decide), bankByte_upperBank]; rfl
  have hi : memRead (resetVector + 1) s = (byteAt (prg.getLastD []) 0x3FFD, s) := by
    rw [memRead_upperWindow hs hm (by decide), bankByte_upperBank]; rfl
  simp only [cpuReset, readVector, lo, hi]

/-- The images the core can run. -/
theorem supported_iff (img : CartImage) :
    supported img = true ↔ img.mapperId = 0 ∧ img.prg ≠ [] ∧ img.mirroring ≠ .fourScreen := by
  simp [supported, and_assoc]

end Sys2Proof.Machine
end

section

namespace Sys2Proof.Proofs

open Sys2Proof.Machine

/-- Settles O6: the fetch's cases are 0, 1 and 2 operand bytes, each read after the one before moved `PC`. -/
theorem fetchTakesOpcodeThenOperandBytes : Obligations.FetchTakesOpcodeThenOperandBytes := by
  unfold Obligations.FetchTakesOpcodeThenOperandBytes
  intro s
  have h1 : s.cpu.pc + 1 + 1 = s.cpu.pc + 2 := by rw [BitVec.add_assoc]; rfl
  have h2 : s.cpu.pc + 2 + 1 = s.cpu.pc + 3 := by rw [BitVec.add_assoc]; rfl
  simp only [fetchInstr, fetch_eq s, fetch_setPc, h1, h2]
  split
  · next n => rw [if_pos n]
  · next n => rw [if_neg (by omega), if_pos n]
  · next n0 n1 => rw [if_neg n0, if_neg n1]

/-- Settles O60: an image that is not supported is refused, and the reset of the attached one reads the last PRG bank. -/
theorem cartridgeInsertionAndRemoval : Obligations.CartridgeInsertionAndRemoval := by
  unfold Obligations.CartridgeInsertionAndRemoval
  intro img s
  refine ⟨fun h => ?_, fun hid hprg hmir => ?_, rfl⟩
  · have hno : ¬ supported img = true := by
      rw [supported_iff]
      rintro ⟨hid, hprg, hmir⟩
      exact h.elim (· hid) (Or.elim · hprg hmir)
    rw [insertCartridge, if_neg hno]
  · rw [insertCartridge, if_pos ((supported_iff img).2 ⟨hid, hprg, hmir⟩),
      cpuReset_attached (c := buildCartridge img) (prg := img.prg) (chr := img.chr) rfl rfl]
    simp only [buildCartridge, hid]
    rfl

end Sys2Proof.Proofs
end

section
/-! SUPPORT. The five fields of a scroll register as bit slices, and what masks, the increments and the replacement of coarse Y
do to them (10_state.md R39). -/

namespace Sys2Proof.Machine

open Sys2Proof.Claims

/-! ## The fields as slices -/

theorem coarseXOf_eq_slice (v : BitVec 15) : coarseXOf v = (v.extractLsb' 0 5).toNat := by
  simp [coarseXOf]

theorem coarseYOf_eq_slice (v : BitVec 15) : coarseYOf v = (v.extractLsb' 5 5).toNat := by
  simp [coarseYOf, Nat.shiftRight_eq_div_pow]

theorem nametableXOf_eq_slice (v : BitVec 15) : nametableXOf v = (v.extractLsb' 10 1).toNat := by
  simp [nametableXOf, Nat.shiftRight_eq_div_pow]

theorem nametableYOf_eq_slice (v : BitVec 15) : nametableYOf v = (v.extractLsb' 11 1).toNat := by
  simp [nametableYOf, Nat.shiftRight_eq_div_pow]

theorem fineYOf_eq_slice (v : BitVec 15) : fineYOf v = (v.extractLsb' 12 3).toNat := by
  have hlt := v.isLt
  simp only [fineYOf, BitVec.extractLsb'_toNat, Nat.shiftRight_eq_div_pow]
  omega

/-- A mask of ones keeps a slice of 5 bits. -/
theorem and_ones5 (x : BitVec 5) : x &&& 31#5 = x := BitVec.and_allOnes

/-- A mask of ones keeps a slice of 3 bits. -/
theorem and_ones3 (x : BitVec 3) : x &&& 7#3 = x := BitVec.and_allOnes

/-- A mask of ones keeps a slice of 1 bit. -/
theorem and_ones1 (x : BitVec 1) : x &&& 1#1 = x := BitVec.and_allOnes

/-- Switching a one-bit field. -/
theorem mod_two_xor_one (n : Nat) : n % 2 ^^^ 1 = 1 - n % 2 := by
  rcases Nat.mod_two_eq_zero_or_one n with h | h <;> rw [h] <;> rfl

/-! ## The copies -/

theorem scrollFields_copyX (v t : BitVec 15) :
    scrollFields (copyX v t) = (coarseXOf t, coarseYOf v, nametableXOf t, nametableYOf v, fineYOf v) := by
  simp [scrollFields, copyX, coarseXOf_eq_slice, coarseYOf_eq_slice, nametableXOf_eq_slice, nametableYOf_eq_slice,
    fineYOf_eq_slice, BitVec.extractLsb'_and, BitVec.extractLsb'_or, and_ones5, and_ones3, and_ones1]

theorem scrollFields_copyY (v t : BitVec 15) :
    scrollFields (copyY v t) = (coarseXOf v, coarseYOf t, nametableXOf v, nametableYOf t, fineYOf t) := by
  simp [scrollFields, copyY, coarseXOf_eq_slice, coarseYOf_eq_slice, nametableXOf_eq_slice, nametableYOf_eq_slice,
    fineYOf_eq_slice, BitVec.extractLsb'_and, BitVec.extractLsb'_or, and_ones5, and_ones3, and_ones1]

/-! ## `IncX` -/

/-- Coarse X set to 0 and nametableX switched. -/
theorem scrollFields_wrapX (v : BitVec 15) :
    scrollFields ((v &&& 0x7FE0) ^^^ 0x0400) = (0, coarseYOf v, 1 - nametableXOf v, nametableYOf v, fineYOf v) := by
  simp [scrollFields, coarseXOf_eq_slice, coarseYOf_eq_slice, nametableXOf_eq_slice, nametableYOf_eq_slice,
    fineYOf_eq_slice, BitVec.extractLsb'_and, BitVec.extractLsb'_xor, and_ones5, and_ones3, and_ones1, mod_two_xor_one]

/-- Below 31 coarse X takes the increment without a carry. -/
theorem scrollFields_add_one {v : BitVec 15} (h : coarseXOf v ≠ 31) :
    scrollFields (v + 1) = (coarseXOf v + 1, coarseYOf v, nametableXOf v, nametableYOf v, fineYOf v) := by
  have hlt := v.isLt
  unfold coarseXOf at h
  have hsum : (v + 1).toNat = v.toNat + 1 := by bv_omega
  simp only [scrollFields, coarseXOf, coarseYOf, nametableXOf, nametableYOf, fineYOf, hsum, Prod.mk.injEq]
  omega

theorem coarseX_mask_iff (v : BitVec 15) : v &&& 0x001F = 31 ↔ coarseXOf v = 31 := by
  rw [← BitVec.toNat_inj, BitVec.toNat_and]
  exact Eq.congr (Nat.and_two_pow_sub_one_eq_mod v.toNat 5) rfl

theorem scrollFields_incX (v : BitVec 15) :
    scrollFields (incX v) =
      if coarseXOf v = 31 then (0, coarseYOf v, 1 - nametableXOf v, nametableYOf v, fineYOf v)
      else (coarseXOf v + 1, coarseYOf v, nametableXOf v, nametableYOf v, fineYOf v) := by
  simp only [incX, coarseX_mask_iff]
  split
  · exact scrollFields_wrapX v
  · next h => exact scrollFields_add_one h

/-! ## `IncY` -/

/-- Below 7 fine Y takes the increment without a carry. -/
theorem scrollFields_add_fineY {v : BitVec 15} (h : fineYOf v < 7) :
    scrollFields (v + 0x1000) = (coarseXOf v, coarseYOf v, nametableXOf v, nametableYOf v, fineYOf v + 1) := by
  unfold fineYOf at h
  have hsum : (v + 0x1000).toNat = v.toNat + 0x1000 := by bv_omega
  simp only [scrollFields, coarseXOf, coarseYOf, nametableXOf, nametableYOf, fineYOf, hsum, Prod.mk.injEq]
  omega

/-- A register is its five fields. -/
theorem scrollFields_inj (v w : BitVec 15) : scrollFields v = scrollFields w ↔ v = w := by
  refine ⟨fun h => BitVec.eq_of_toNat_eq ?_, fun h => by rw [h]⟩
  simp only [scrollFields, coarseXOf, coarseYOf, nametableXOf, nametableYOf, fineYOf, Prod.mk.injEq] at h
  omega

theorem scrollFields_fineY_alone (v : BitVec 15) : scrollFields (v &&& 0x7000) = (0, 0, 0, 0, fineYOf v) := by
  simp [scrollFields, coarseXOf_eq_slice, coarseYOf_eq_slice, nametableXOf_eq_slice, nametableYOf_eq_slice,
    fineYOf_eq_slice, BitVec.extractLsb'_and, and_ones3]

theorem fineY_mask_iff (v : BitVec 15) : v &&& 0x7000 = 0x7000 ↔ fineYOf v = 7 := by
  rw [← scrollFields_inj, scrollFields_fineY_alone, show scrollFields 0x7000 = (0, 0, 0, 0, 7) by decide]
  simp

theorem toNat_coarseY (v : BitVec 15) : (coarseY v).toNat = coarseYOf v := by
  rw [coarseY, BitVec.toNat_and, BitVec.toNat_ushiftRight, Nat.shiftRight_eq_div_pow]
  exact Nat.and_two_pow_sub_one_eq_mod _ 5

/-- Replacing coarse Y leaves the other fields alone. -/
theorem scrollFields_withCoarseY (v : BitVec 15) {cy : BitVec 15} (h : cy.toNat < 32) :
    scrollFields (withCoarseY v cy) = (coarseXOf v, cy.toNat, nametableXOf v, nametableYOf v, fineYOf v) := by
  have hshift : (cy <<< 5).toNat = 32 * cy.toNat := by
    rw [BitVec.toNat_shiftLeft, Nat.shiftLeft_eq]; omega
  have slice (k n : Nat) : ((cy <<< 5).extractLsb' k n).toNat = 32 * cy.toNat / 2 ^ k % 2 ^ n := by
    rw [BitVec.extractLsb'_toNat, hshift, Nat.shiftRight_eq_div_pow]
  have h0 : (cy <<< 5).extractLsb' 0 5 = 0 := BitVec.eq_of_toNat_eq (by rw [slice]; simp)
  have h5 : (cy <<< 5).extractLsb' 5 5 = BitVec.ofNat 5 cy.toNat :=
    BitVec.eq_of_toNat_eq (by rw [slice, BitVec.toNat_ofNat]; omega)
  have h10 : (cy <<< 5).extractLsb' 10 1 = 0 := BitVec.eq_of_toNat_eq (by rw [slice]; simp; omega)
  have h11 : (cy <<< 5).extractLsb' 11 1 = 0 := BitVec.eq_of_toNat_eq (by rw [slice]; simp; omega)
  have h12 : (cy <<< 5).extractLsb' 12 3 = 0 := BitVec.eq_of_toNat_eq (by rw [slice]; simp; omega)
  simp [scrollFields, withCoarseY, coarseXOf_eq_slice, coarseYOf_eq_slice, nametableXOf_eq_slice, nametableYOf_eq_slice,
    fineYOf_eq_slice, BitVec.extractLsb'_and, BitVec.extractLsb'_or, and_ones5, and_ones3, and_ones1, h0, h5, h10, h11, h12,
    Nat.mod_eq_of_lt h]

theorem scrollFields_clearFineY (v : BitVec 15) :
    scrollFields (v &&& 0x0FFF) = (coarseXOf v, coarseYOf v, nametableXOf v, nametableYOf v, 0) := by
  simp [scrollFields, coarseXOf_eq_slice, coarseYOf_eq_slice, nametableXOf_eq_slice, nametableYOf_eq_slice,
    fineYOf_eq_slice, BitVec.extractLsb'_and, and_ones5, and_ones1]

theorem scrollFields_switchY (v : BitVec 15) :
    scrollFields (v ^^^ 0x0800) = (coarseXOf v, coarseYOf v, nametableXOf v, 1 - nametableYOf v, fineYOf v) := by
  simp [scrollFields, coarseXOf_eq_slice, coarseYOf_eq_slice, nametableXOf_eq_slice, nametableYOf_eq_slice,
    fineYOf_eq_slice, BitVec.extractLsb'_xor, mod_two_xor_one]

theorem coarseY_eq_iff (v n : BitVec 15) : coarseY v = n ↔ coarseYOf v = n.toNat := by
  rw [← toNat_coarseY, BitVec.toNat_inj]

/-- The carry into coarse Y: it goes from 29 to 0 with a switch of nametableY and from 31 to 0 without. -/
theorem scrollFields_incY (v : BitVec 15) :
    scrollFields (incY v) =
      if fineYOf v < 7 then (coarseXOf v, coarseYOf v, nametableXOf v, nametableYOf v, fineYOf v + 1)
      else if coarseYOf v = 29 then (coarseXOf v, 0, nametableXOf v, 1 - nametableYOf v, 0)
      else if coarseYOf v = 31 then (coarseXOf v, 0, nametableXOf v, nametableYOf v, 0)
      else (coarseXOf v, coarseYOf v + 1, nametableXOf v, nametableYOf v, 0) := by
  have hfine : fineYOf v < 8 := by have := v.isLt; unfold fineYOf; omega
  unfold incY
  by_cases h7 : fineYOf v = 7
  · rw [if_neg (not_not.2 ((fineY_mask_iff v).2 h7)), if_neg (show ¬ fineYOf v < 7 by omega)]
    have hw := scrollFields_clearFineY v
    generalize v &&& 0x0FFF = w at hw ⊢
    simp only [scrollFields, Prod.mk.injEq] at hw
    obtain ⟨hcx, hcy, hnx, hny, hfy⟩ := hw
    have hswitch := scrollFields_switchY w
    simp only [scrollFields, Prod.mk.injEq] at hswitch
    obtain ⟨hcx', -, hnx', hny', hfy'⟩ := hswitch
    have h29 : coarseY w = 29 ↔ coarseYOf v = 29 := hcy ▸ coarseY_eq_iff w 29
    have h31 : coarseY w = 31 ↔ coarseYOf v = 31 := hcy ▸ coarseY_eq_iff w 31
    have hlt : (coarseY w).toNat < 32 := by rw [toNat_coarseY]; exact Nat.mod_lt _ (by decide)
    have hnext : (coarseY w + 1).toNat = (coarseY w).toNat + 1 := by bv_omega
    rw [toNat_coarseY, hcy] at hlt hnext
    simp only [h29, h31]
    split
    · rw [scrollFields_withCoarseY _ (by decide), hcx', hnx', hny', hfy', hcx, hnx, hny, hfy]; rfl
    · split
      · rw [scrollFields_withCoarseY _ (by decide), hcx, hnx, hny, hfy]; rfl
      · rw [scrollFields_withCoarseY _ (by omega), hnext, hcx, hnx, hny, hfy]
  · rw [if_pos (fun h => h7 ((fineY_mask_iff v).1 h)), if_pos (show fineYOf v < 7 by omega)]
    exact scrollFields_add_fineY (by omega)

end Sys2Proof.Machine
end

section

namespace Sys2Proof.Proofs

open Sys2Proof.Machine

/-- Settles O55, one update at a time. -/
theorem scrollUpdates : Obligations.ScrollUpdates := by
  unfold Obligations.ScrollUpdates
  intro v t
  exact ⟨scrollFields_incX v, scrollFields_incY v, scrollFields_copyX v t, scrollFields_copyY v t⟩

end Sys2Proof.Proofs
end

section
/-! SUPPORT. The decoder on the bytes of an instruction (30_encoding.md R140). -/

namespace Sys2Proof

/-- The decoder takes the opcode and the operand bytes of an instruction and leaves the bytes after them. -/
theorem decodeBytes_encode {i : Instr} {op : Byte} (h : i.opcode? = some op) (rest : List Byte) :
    decodeBytes (encode i ++ rest) = .ok i rest := by
  obtain ⟨hkind, hmode⟩ := entry_of_opcode h
  obtain ⟨hlen, hoperand⟩ := operand_of_bytes i.operand rest
  have henc : encode i ++ rest = op :: (i.operand.bytes ++ rest) := by rw [encode, h]; rfl
  have hlong : ¬ (i.operand.bytes ++ rest).length < (entry op).mode.operandBytes := by
    rw [hmode, ← hlen, List.length_append]; omega
  have hdecode : decode op ((i.operand.bytes ++ rest).getD 0 0) ((i.operand.bytes ++ rest).getD 1 0) = i := by
    rw [decode, hkind, hmode, hoperand, instr_of_kind h]
  have hrest : (i.operand.bytes ++ rest).drop (entry op).mode.operandBytes = rest := by
    rw [hmode, ← hlen, List.drop_left]
  rw [henc, decodeBytes, if_neg hlong, hdecode, hrest]

end Sys2Proof
end

section
/-! SUPPORT. The tick count along an instruction, and that no step stops (60_exceptions.md R406). -/

namespace Sys2Proof.Machine

/-- The moves of an instruction leave the tick count alone. -/
theorem Moves.tick {i : Instr} {s t : State} (h : Moves i s t) : t.tick = s.tick := by
  induction h with
  | refl => rfl
  | read _ a ih => rwa [memRead_tick]
  | write _ a d ih => rwa [memWrite_tick]
  | cpu _ c hc ih => exact ih

/-- A term that an opcode stands for completes. -/
theorem exec_completes {i : Instr} {op : Byte} (h : i.opcode? = some op) (s : State) : ∃ t, exec i s = .next t :=
  ⟨_, (exec_eq_instrBody i s).trans (withCycles_of_opcode _ s h)⟩

/-- The instruction fetched completes, in the same tick. -/
theorem cpuStep_completes (s : State) : ∃ t, cpuStep s = .next t ∧ t.tick = s.tick := by
  obtain ⟨op, hop⟩ := opcode_of_fetchInstr s
  obtain ⟨t, ht⟩ := exec_completes hop (fetchInstr s).2
  exact ⟨t, ht, (exec_moves ht).tick.trans (fetchInstr_moves s).tick⟩

theorem pollNmi_tick (s : State) : (pollNmi Config.params s).tick = s.tick := by
  unfold pollNmi
  split
  · exact (cpuNmi_moves _).tick
  · rfl

/-- Every tick under the default parameters answers a next state, one tick later. -/
theorem step_completes (s : State) : ∃ t, step s = .next t ∧ t.tick = s.tick + 1 := by
  have hpolled : (pollNmi Config.params (stepPpu Config.params s)).tick = s.tick := pollNmi_tick _
  unfold step masterTick
  dsimp only
  split
  · obtain ⟨t, ht, htick⟩ := cpuStep_completes (pollNmi Config.params (stepPpu Config.params s))
    refine ⟨countTick t, congrArg (mapNext countTick) ht, ?_⟩
    exact congrArg (· + 1) (htick.trans hpolled)
  · exact ⟨_, rfl, congrArg (· + 1) hpolled⟩

end Sys2Proof.Machine
end

section
/-! SUPPORT. The CPU address space by the number of the address: RAM and its mirrors, the ports, the windows of the cartridge
(20_memory.md R84 to R88, R111 to R114). -/

namespace Sys2Proof.Machine

open Sys2Proof.Claims

/-! ## The fields of a CPU address -/

theorem ramIndex_toNat (a : Word) : (a &&& 0x07FF).toNat = a.toNat % 0x800 := by
  rw [BitVec.toNat_and]
  exact Nat.and_two_pow_sub_one_eq_mod a.toNat 11

theorem isPort_iff (a : Word) : isPort a = true ↔ 0x2000 ≤ a.toNat ∧ a.toNat ≤ 0x3FFF := by simp [isPort]

theorem not_isPort_iff (a : Word) : isPort a = false ↔ a.toNat < 0x2000 ∨ 0x3FFF < a.toNat := by
  rw [Bool.eq_false_iff, ne_eq, isPort_iff]; omega

theorem portOfIndex_mod (n : Nat) : portOfIndex (n % 8) = portOfIndex n := by
  rw [portOfIndex, portOfIndex, Nat.mod_mod]

/-! ## Reads above the ports -/

/-- Above the ports a read answers what the Mapper does, 0x00 where it claims nothing, and changes nothing. -/
theorem memRead_mapped {s : State} {a : Word} (h : 0x3FFF < a.toNat) :
    memRead a s = ((s.cart.bind fun c => cpuReadMap c.mapper a).getD 0x00, s) := by
  unfold memRead
  cases s.cart.bind fun c => cpuReadMap c.mapper a with
  | some b => rfl
  | none =>
    dsimp only
    rw [if_neg (by omega), if_neg (by omega)]
    rfl

/-- What Mapper0 answers in the stub window. -/
theorem cpuReadMap_stub {prg chr : List Memory} {a : Word} (h : 0x6000 ≤ a.toNat) (h' : a.toNat < 0x8000) :
    cpuReadMap (.mapper0 prg chr) a = some 0x00 := by
  rw [cpuReadMap, if_neg (by omega), if_neg (by omega), if_pos h]

/-- What Mapper0 answers in the lower PRG window: a byte of the first bank. -/
theorem cpuReadMap_lower {prg chr : List Memory} {a : Word} (h : 0x8000 ≤ a.toNat) (h' : a.toNat < 0xC000) :
    cpuReadMap (.mapper0 prg chr) a = some (byteAt (prg.headD []) (a.toNat % 0x4000)) := by
  rw [cpuReadMap, if_neg (by omega), if_pos h, ppuAddr_toNat, bankByte]
  cases prg <;> rfl

end Sys2Proof.Machine
end

section

namespace Sys2Proof.Proofs

open Sys2Proof.Machine Sys2Proof.Claims

/-- Settles O1: a well-formed instruction has an opcode, whose entry gives back its kind and its operand form. -/
theorem decodingUndoesEncoding : Obligations.DecodingUndoesEncoding := by
  unfold Obligations.DecodingUndoesEncoding
  intro i rest h
  obtain ⟨op, hop⟩ := opcode_of_wellFormed h
  exact decodeBytes_encode hop rest

/-- Settles O8: the CPU's part of a tick is an instruction the decoder made, which completes. -/
theorem everyStepAnswersNext : Obligations.EveryStepAnswersNext := by
  unfold Obligations.EveryStepAnswersNext
  exact step_completes

/-- Settles O43, window by window. -/
theorem cpuReadMap : Obligations.CpuReadMap := by
  unfold Obligations.CpuReadMap
  intro a s
  refine ⟨fun h => ?_, fun h => ?_, fun h h' => ?_, fun hc h => ?_, fun c prg chr hc hm =>
    ⟨fun h h' => ?_, fun h h' => ?_, fun h => ?_⟩⟩
  · rw [memRead_ram (by omega), ramIndex_toNat]
  · obtain ⟨hlo, hhi⟩ := (isPort_iff a).1 h
    rw [portOfIndex_mod]
    exact memRead_port hlo hhi
  · rw [memRead_mapped (by omega), cartRead_low h']; rfl
  · rw [memRead_mapped (by omega), hc]; rfl
  · rw [memRead_mapped (by omega), hc, Option.bind_some, hm, cpuReadMap_stub h h']; rfl
  · rw [memRead_mapped (by omega), hc, Option.bind_some, hm, cpuReadMap_lower h h']; rfl
  · rw [memRead_upperWindow hc hm h, bankByte_upperBank, ppuAddr_toNat]

/-- Settles O44: the three ranges of a write. -/
theorem cpuWriteMap : Obligations.CpuWriteMap := by
  unfold Obligations.CpuWriteMap
  intro a d s
  refine ⟨fun h => ?_, fun h => ?_, fun h => memWrite_high (by omega)⟩
  · rw [memWrite_ram (by omega), ramIndex_toNat]
  · obtain ⟨hlo, hhi⟩ := (isPort_iff a).1 h
    rw [portOfIndex_mod]
    exact memWrite_port hlo hhi

end Sys2Proof.Proofs
end

section
/-! SUPPORT. The PPU address space as four memories and a byte of one of them: a read answers the byte an address names, a
write stores that byte alone (20_memory.md R100 to R106, R115, R116). -/

namespace Sys2Proof.Machine

open Sys2Proof.Claims

/-! ## The byte an address names -/

theorem ppuCell_pattern (cart : Option Cartridge) {a : Word} (h : a.toNat % 0x4000 < 0x2000) :
    ppuCell cart a = (0, a.toNat % 0x4000) := by
  simp only [ppuCell, if_pos h]

theorem ppuCell_nameTable (cart : Option Cartridge) {a : Word} (h : 0x2000 ≤ a.toNat % 0x4000)
    (h' : a.toNat % 0x4000 < 0x3F00) :
    ppuCell cart a = (if ntSelect (mirroringOf cart) (a &&& 0x3FFF) then 2 else 1, a.toNat % 0x4000 % 0x400) := by
  have hlow : ¬ a.toNat % 0x4000 < 0x2000 := by omega
  have hmask : BitVec.ofNat 16 (a.toNat % 0x4000) = a &&& 0x3FFF := by
    rw [← ppuAddr_toNat, BitVec.ofNat_toNat, BitVec.setWidth_eq]
  simp only [ppuCell, if_neg hlow, if_pos h', hmask]

theorem ppuCell_palette (cart : Option Cartridge) {a : Word} (h : 0x3F00 ≤ a.toNat % 0x4000) :
    ppuCell cart a = (3, palIndex (a &&& 0x3FFF)) := by
  have hlow : ¬ a.toNat % 0x4000 < 0x2000 := by omega
  have hnt : ¬ a.toNat % 0x4000 < 0x3F00 := by omega
  have hmod : a.toNat % 0x4000 % 32 % 4 = a.toNat % 0x4000 % 4 := by omega
  simp only [ppuCell, if_neg hlow, if_neg hnt, hmod, palIndex_eq_mod, ppuAddr_toNat]

/-- The memory of number `k` as `ppuCell` numbers them: pattern, the two name tables, palette. -/
def cellMemory (cart : Option Cartridge) (u : Ppu) (k : Nat) : Memory :=
  match k with
  | 0 => (chrBanks cart).headD u.ipat
  | 1 => u.nt0
  | 2 => u.nt1
  | 3 => u.pal
  | _ => []

/-- A read answers the byte its address names. -/
theorem ppuRead_eq_cell (cart : Option Cartridge) (u : Ppu) (a : Word) :
    ppuRead cart u a = byteAt (cellMemory cart u (ppuCell cart a).1) (ppuCell cart a).2 := by
  rcases Nat.lt_or_ge (a.toNat % 0x4000) 0x2000 with h | h
  · rw [ppuRead_pattern cart u h, ppuCell_pattern cart h]; rfl
  rcases Nat.lt_or_ge (a.toNat % 0x4000) 0x3F00 with h' | h'
  · rw [ppuRead_nameTable cart u h h', ppuCell_nameTable cart h h', ntOf]
    split <;> rfl
  · rw [ppuRead_palette cart u h', ppuCell_palette cart h']; rfl

/-! ## A write -/

/-- Mapper0 claims no PPU write from 0x2000 on. -/
theorem ppuWriteMap_high {m : Mapper} {a : Word} {d : Byte} (h : 0x2000 ≤ a.toNat) : ppuWriteMap m a d = none := by
  obtain ⟨prg, _ | ⟨bank, others⟩⟩ := m
  · rfl
  · rw [ppuWriteMap, if_neg (by omega)]

/-- From 0x2000 on a write goes to the internal tables, whatever is attached. -/
theorem ppuWrite_internal (cart : Option Cartridge) (u : Ppu) {a : Word} (d : Byte) (h : 0x2000 ≤ a.toNat % 0x4000) :
    ppuWrite cart u a d = (cart, ppuInternalWrite cart u (a &&& 0x3FFF) d) := by
  cases cart with
  | none => rfl
  | some c =>
    have miss : ppuWriteMap c.mapper (a &&& 0x3FFF) d = none := ppuWriteMap_high (by rwa [ppuAddr_toNat])
    simp only [ppuWrite, miss]

theorem ppuWrite_nameTable (cart : Option Cartridge) (u : Ppu) {a : Word} (d : Byte) (h : 0x2000 ≤ a.toNat % 0x4000)
    (h' : a.toNat % 0x4000 < 0x3F00) :
    ppuWrite cart u a d = (cart,
      if ntSelect (mirroringOf cart) (a &&& 0x3FFF) then { u with nt1 := storeByte u.nt1 (a.toNat % 0x4000 % 0x400) d }
      else { u with nt0 := storeByte u.nt0 (a.toNat % 0x4000 % 0x400) d }) := by
  rw [ppuWrite_internal cart u d h, ppuInternalWrite, if_neg (by rw [ppuAddr_toNat]; omega),
    if_pos (by rw [ppuAddr_toNat]; omega), tableIndex_toNat, ppuAddr_toNat]

theorem ppuWrite_palette (cart : Option Cartridge) (u : Ppu) {a : Word} (d : Byte) (h : 0x3F00 ≤ a.toNat % 0x4000) :
    ppuWrite cart u a d = (cart, { u with pal := storeByte u.pal (palIndex (a &&& 0x3FFF)) d }) := by
  rw [ppuWrite_internal cart u d (by omega), ppuInternalWrite, if_neg (by rw [ppuAddr_toNat]; omega),
    if_neg (by rw [ppuAddr_toNat]; omega)]

/-- A write in the pattern range stores into the first CHR bank, or into the internal pattern memory with none. -/
theorem cellMemory_ppuWrite_pattern (cart : Option Cartridge) (u : Ppu) {a : Word} (d : Byte)
    (h : a.toNat % 0x4000 < 0x2000) (k : Nat) :
    cellMemory (ppuWrite cart u a d).1 (ppuWrite cart u a d).2 k =
      if k = 0 then storeByte (cellMemory cart u k) (a.toNat % 0x4000) d else cellMemory cart u k := by
  have hle : (a &&& 0x3FFF).toNat ≤ 0x1FFF := by rw [ppuAddr_toNat]; omega
  rw [← ppuAddr_toNat]
  rcases cart with _ | ⟨mirroring, mapperId, prg, _ | ⟨bank, others⟩⟩
  · simp only [ppuWrite, ppuInternalWrite, if_pos hle]
    rcases k with _ | _ | _ | _ | _ <;> rfl
  · simp only [ppuWrite, ppuWriteMap, ppuInternalWrite, if_pos hle]
    rcases k with _ | _ | _ | _ | _ <;> rfl
  · simp only [ppuWrite, ppuWriteMap, if_pos hle]
    rcases k with _ | _ | _ | _ | _ <;> rfl

/-- A write stores the byte its address names and leaves the other memories alone. -/
theorem cellMemory_ppuWrite (cart : Option Cartridge) (u : Ppu) (a : Word) (d : Byte) (k : Nat) :
    cellMemory (ppuWrite cart u a d).1 (ppuWrite cart u a d).2 k =
      if k = (ppuCell cart a).1 then storeByte (cellMemory cart u k) (ppuCell cart a).2 d else cellMemory cart u k := by
  rcases Nat.lt_or_ge (a.toNat % 0x4000) 0x2000 with h | h
  · rw [cellMemory_ppuWrite_pattern cart u d h, ppuCell_pattern cart h]
  rcases Nat.lt_or_ge (a.toNat % 0x4000) 0x3F00 with h' | h'
  · rw [ppuWrite_nameTable cart u d h h', ppuCell_nameTable cart h h']
    split <;> rcases k with _ | _ | _ | _ | _ <;> rfl
  · rw [ppuWrite_palette cart u d h', ppuCell_palette cart h']
    rcases k with _ | _ | _ | _ | _ <;> rfl

/-- A write leaves the mirroring mode alone. -/
theorem mirroringOf_ppuWrite (cart : Option Cartridge) (u : Ppu) (a : Word) (d : Byte) :
    mirroringOf (ppuWrite cart u a d).1 = mirroringOf cart := by
  rcases ppuWrite_cart cart u a d with h | ⟨c, m, hc, h, -⟩
  · rw [h]
  · rw [h, hc]; rfl

/-- A write leaves alone which byte an address names. -/
theorem ppuCell_ppuWrite (cart : Option Cartridge) (u : Ppu) (a b : Word) (d : Byte) :
    ppuCell (ppuWrite cart u a d).1 b = ppuCell cart b := by
  simp only [ppuCell, mirroringOf_ppuWrite]

/-- A byte written reads back where an address names it, and every other byte reads as before. -/
theorem ppuRead_ppuWrite (cart : Option Cartridge) (u : Ppu) (a b : Word) (d : Byte) :
    ppuRead (ppuWrite cart u a d).1 (ppuWrite cart u a d).2 b =
      if ppuCell cart b = ppuCell cart a then d else ppuRead cart u b := by
  rw [ppuRead_eq_cell, ppuRead_eq_cell, ppuCell_ppuWrite, cellMemory_ppuWrite]
  by_cases hmem : (ppuCell cart b).1 = (ppuCell cart a).1
  · rw [if_pos hmem, byteAt_storeByte]
    simp only [Prod.ext_iff, hmem, true_and]
  · rw [if_neg hmem, if_neg fun e => hmem (congrArg Prod.fst e)]

end Sys2Proof.Machine
end

section

namespace Sys2Proof.Proofs

open Sys2Proof.Machine

/-- Settles O46: the byte an address names is stored, and the PPU's side of a write changes its memories alone. -/
theorem ppuStoreReadsBack : Obligations.PpuStoreReadsBack := by
  unfold Obligations.PpuStoreReadsBack
  intro cart u a b d
  exact ⟨ppuRead_ppuWrite cart u a b d, ppuWrite_frame cart u a d⟩

end Sys2Proof.Proofs
end

section
/-! SUPPORT. The base count of an instruction, from the table of the decoder and from the "Operands" lines
(40_cpu_step_and_addressing.md R184). -/

namespace Sys2Proof.Machine

open Sys2Proof.Claims

/-- The "Operands" lines and the opcode table give one opcode and one count to each form. -/
theorem rows_eq_forms (k : Kind) :
    ((rows k).map fun r => (r.1, r.2.1, some r.2.2)) = k.forms.map fun r => (r.1, r.2, (entry r.2).cycles) := by
  cases k <;> decide +kernel

theorem find?_of_lookup {l : List (Mode × Byte)} {m : Mode} {op : Byte} (h : l.lookup m = some op) :
    (l.find? fun r => r.1 == m) = some (m, op) := by
  induction l with
  | nil => cases h
  | cons r l ih =>
    obtain ⟨m', op'⟩ := r
    rw [List.lookup_cons] at h
    split at h
    · next e =>
      obtain rfl := beq_iff_eq.1 e
      cases h
      simp
    · next e =>
      have e' : (m' == m) = false := BEq.comm.trans e
      rw [List.find?_cons, e']
      exact ih h

/-- The row of a form that has an opcode: that opcode, and the count of its entry. -/
theorem row_of_opcode {k : Kind} {m : Mode} {op : Byte} (h : k.forms.lookup m = some op) :
    ∃ n, ((rows k).find? fun r => r.1 == m) = some (m, op, n) ∧ (entry op).cycles = some n := by
  have htable := congrArg (List.find? fun r => r.1 == m) (rows_eq_forms k)
  rw [List.find?_map, List.find?_map] at htable
  change ((rows k).find? fun r => r.1 == m).map _ = (k.forms.find? fun r => r.1 == m).map _ at htable
  rw [find?_of_lookup h, Option.map_some] at htable
  obtain ⟨⟨m', op', n⟩, hrow, e⟩ := Option.map_eq_some_iff.1 htable
  obtain ⟨rfl, rfl, hn⟩ : m' = m ∧ op' = op ∧ some n = (entry op).cycles := by simpa using e
  exact ⟨n, hrow, hn.symm⟩

/-- The entry of a placeholder's opcode leaves its count open. -/
theorem entry_cycles_of_mia {op : Byte} {m : Mode} (h : miaMode op = some m) : (entry op).cycles = none := by
  have hentry := miaMode_entry op
  rw [h, Option.all_some, beq_iff_eq] at hentry
  rw [hentry]

/-- The base count the machine adds is the one the rules state. -/
theorem cycles_of_opcode {i : Instr} {op : Byte} (h : i.opcode? = some op) :
    (entry op).cycles.getD (Config.miaCycles op) = baseCount i := by
  have documented (k : Kind) (m : Mode) (hk : k.forms.lookup m = some op) :
      (entry op).cycles.getD (Config.miaCycles op) =
        (((rows k).find? fun r => r.1 == m).map fun r => r.2.2).getD 0 := by
    obtain ⟨n, hrow, hn⟩ := row_of_opcode hk
    rw [hrow, hn]; rfl
  cases i with
  | mia op' o =>
    have hmode : miaMode op' = some o.mode ∧ op' = op := by simpa [Instr.opcode?] using h
    obtain ⟨hmode, rfl⟩ := hmode
    rw [entry_cycles_of_mia hmode]; rfl
  | _ => exact documented _ _ h

/-- What `exec` answers next: the instruction is well formed, and its body ran after its base count. -/
theorem exec_next_baseCount {i : Instr} {s t : State} (h : exec i s = .next t) :
    i.WellFormed = true ∧ t = instrBody i (s.addCyc (baseCount i)) := by
  rw [exec_eq_instrBody] at h
  rcases withCycles_cases i (instrBody i) s with ⟨op, hop, e⟩ | ⟨-, e⟩
  · rw [e, cycles_of_opcode hop] at h
    rw [wellFormed_iff_opcode, hop]
    cases h
    exact ⟨rfl, rfl⟩
  · rw [e] at h
    cases h

end Sys2Proof.Machine
end

section
/-! SUPPORT. What a debug read of the CPU space depends on, and the pushes: which bytes of RAM `n` of them may change
(20_memory.md R86; 40_cpu_step_and_addressing.md R180). -/

namespace Sys2Proof.Machine

open Sys2Proof.Claims

/-! ## Debug reads -/

/-- Outside the ports a debug read answers a byte of RAM, or what the Mapper does. -/
theorem peek_ram {a : Word} (h : a.toNat < 0x2000) (s : State) : peek a s = byteAt s.ram (a.toNat % 0x800) := by
  rw [peek, memRead_ram (by omega), ramIndex_toNat]

theorem peek_mapped {a : Word} (h : 0x3FFF < a.toNat) (s : State) :
    peek a s = (s.cart.bind fun c => cpuReadMap c.mapper a).getD 0x00 := by
  rw [peek, memRead_mapped h]

theorem peek_addCyc (a : Word) (s : State) (n : Nat) : peek a (s.addCyc n) = peek a s := by
  rw [peek, State.addCyc, memRead_withCpu, peek]

/-- Two addresses of RAM that name different bytes have different indices. -/
theorem sameRamByte_eq_false {a b : Word} (ha : a.toNat < 0x2000) (hb : b.toNat < 0x2000) :
    sameRamByte a b = false ↔ a.toNat % 0x800 ≠ b.toNat % 0x800 := by
  simp [sameRamByte, ha, hb]

/-! ## Pushes -/

theorem stackSlot_toNat (sp : Byte) : (BitVec.ofNat 16 (stackSlot sp)).toNat = stackSlot sp := by
  have := sp.isLt
  rw [BitVec.toNat_ofNat, stackSlot]; omega

/-- `t` comes from `s` by `n` pushes and by changes of CPU registers other than `SP`. -/
structure Pushed (n : Nat) (s t : State) : Prop where
  sp : t.cpu.sp = s.cpu.sp - BitVec.ofNat 8 n
  ram : ∀ j, (∀ k < n, j ≠ stackSlot (s.cpu.sp - BitVec.ofNat 8 k)) → byteAt t.ram j = byteAt s.ram j
  ppu : t.ppu = s.ppu
  cart : t.cart = s.cart

namespace Pushed

variable {n : Nat} {s t : State}

theorem refl (s : State) : Pushed 0 s s := ⟨(BitVec.sub_zero _).symm, fun _ _ => rfl, rfl, rfl⟩

theorem push (h : Pushed n s t) (v : Byte) : Pushed (n + 1) s (Machine.push v t) where
  sp := by
    rw [push_sp, h.sp]
    bv_omega
  ram j hj := by
    rw [push_ram, h.sp, ← stackSlot, byteAt_storeByte_other _ _ (hj n (Nat.lt_succ_self n))]
    exact h.ram j fun k hk => hj k (Nat.lt_succ_of_lt hk)
  ppu := by rw [push_frame]; exact h.ppu
  cart := by rw [push_frame]; exact h.cart

theorem setPc (h : Pushed n s t) (v : Word) : Pushed n s (t.setPc v) := ⟨h.sp, h.ram, h.ppu, h.cart⟩

theorem setP (h : Pushed n s t) (v : Byte) : Pushed n s (t.setP v) := ⟨h.sp, h.ram, h.ppu, h.cart⟩

/-- A debug read that names none of the pushed bytes answers as before. -/
theorem peek_eq (h : Pushed n s t) {a : Word} (ha : isPort a = false)
    (hne : ∀ k < n, sameRamByte a (BitVec.ofNat 16 (stackSlot (s.cpu.sp - BitVec.ofNat 8 k))) = false) :
    peek a t = peek a s := by
  rcases (not_isPort_iff a).1 ha with hram | hhigh
  · rw [peek_ram hram, peek_ram hram]
    refine h.ram _ fun k hk => ?_
    have hslot : stackSlot (s.cpu.sp - BitVec.ofNat 8 k) < 0x200 := by
      have := (s.cpu.sp - BitVec.ofNat 8 k).isLt
      rw [stackSlot]; omega
    have hdiff := (sameRamByte_eq_false hram (by rw [stackSlot_toNat]; omega)).1 (hne k hk)
    rw [stackSlot_toNat] at hdiff
    omega
  · rw [peek_mapped hhigh, peek_mapped hhigh, h.cart]

end Pushed

/-! ## The instructions that push -/

/-- An interrupt entry through a vector above the ports makes three pushes. -/
theorem interrupt_pushed {vec : Word} (h : 0x3FFF < vec.toNat) (h' : 0x3FFF < (vec + 1).toNat) (s : State) :
    Pushed 3 s (interrupt vec s) := by
  have hvec (u : State) : (readVector vec u).2 = u := by
    simp only [readVector]
    rw [memRead_above h', memRead_above h]
  rw [interrupt, hvec]
  exact ((((Pushed.refl s).push _).push _).push _ |>.setP _).setPc _

/-- JSR has the ABS form alone. -/
theorem jsr_operand {o : Operand} (h : (Instr.jsr o).WellFormed = true) : ∃ a, o = .abs a := by
  have hmode : o.mode = .abs := beq_iff_eq.1 h
  cases o with
  | abs a => exact ⟨a, rfl⟩
  | _ => cases hmode

theorem callSubroutine_pushed (a : Word) (s : State) : Pushed 2 s (callSubroutine (.abs a) s) :=
  (((Pushed.refl s).push _).push _).setPc _

/-- The body of an instruction that pushes makes its number of pushes. -/
theorem instrBody_pushed {i : Instr} (hi : pushes i ≠ 0) (hwf : i.WellFormed = true) (s : State) :
    Pushed (pushes i) s (instrBody i s) := by
  cases i with
  | pha | php => exact (Pushed.refl s).push _
  | jsr o =>
    obtain ⟨a, rfl⟩ := jsr_operand hwf
    exact callSubroutine_pushed a s
  | brk =>
    obtain ⟨hsp, hram, hppu, hcart⟩ :=
      interrupt_pushed (vec := irqVector) (by decide) (by decide) (s.setPc (s.cpu.pc + 1))
    exact ⟨hsp, hram, hppu, hcart⟩
  | _ => exact absurd rfl hi

end Sys2Proof.Machine
end

section

namespace Sys2Proof.Proofs

open Sys2Proof.Machine

/-- Settles O22: the body of each of the four makes its pushes and else changes CPU registers alone. -/
theorem pushesChangeOnlyTheirStackBytes : Obligations.PushesChangeOnlyTheirStackBytes := by
  unfold Obligations.PushesChangeOnlyTheirStackBytes
  intro i s t hi h
  obtain ⟨hwf, rfl⟩ := exec_next_baseCount h
  have hpushed := instrBody_pushed hi hwf (s.addCyc (Claims.baseCount i))
  exact ⟨fun a ha hne => (hpushed.peek_eq ha hne).trans (peek_addCyc a s _), hpushed.ppu, hpushed.cart⟩

end Sys2Proof.Proofs
end

section
/-! SUPPORT. What bus reads leave readable and what a bus write leaves readable, in both address spaces; the forms that store
as one bus write at the effective address (20_memory.md R85, R101; 40_cpu_step_and_addressing.md R183). -/

namespace Sys2Proof.Machine

open Sys2Proof.Claims

/-! ## Reads of the bus keep every memory -/

/-- `t` comes from `s` by bus reads and changes of CPU registers: of the port state only what a port read changes differs. -/
structure MemoryKept (s t : State) : Prop where
  ram : t.ram = s.ram
  cart : t.cart = s.cart
  ppu : t.ppu = { s.ppu with status := t.ppu.status, w := t.ppu.w, rdbuf := t.ppu.rdbuf, v := t.ppu.v }

namespace MemoryKept

variable {s t : State}

theorem refl (s : State) : MemoryKept s s := ⟨rfl, rfl, rfl⟩

theorem read (h : MemoryKept s t) (a : Word) : MemoryKept s (memRead a t).2 where
  ram := by rw [memRead_ram_eq, h.ram]
  cart := by rw [memRead_cart, h.cart]
  ppu := by rw [memRead_ppu_frame, h.ppu]

theorem addCyc (h : MemoryKept s t) (n : Nat) : MemoryKept s (t.addCyc n) := ⟨h.ram, h.cart, h.ppu⟩

theorem indexed (h : MemoryKept s t) (base : Word) (index : Byte) : MemoryKept s (Machine.indexed base index t).2 := by
  unfold Machine.indexed
  dsimp only
  split
  · exact h.addCyc 1
  · exact h

/-- The addressing modes make bus reads alone. -/
theorem effAddr (h : MemoryKept s t) (o : Operand) : MemoryKept s (Machine.effAddr o t).2 := by
  cases o with
  | abx a => exact h.indexed a t.cpu.x
  | aby a => exact h.indexed a t.cpu.y
  | izx d => exact (h.read _).read _
  | izy d => exact ((h.read _).read _).indexed _ _
  | ind a => exact (h.read _).read _
  | _ => exact h

/-- Every byte outside the ports reads as before. -/
theorem peek_eq (h : MemoryKept s t) {a : Word} (ha : isPort a = false) : peek a t = peek a s := by
  rcases (not_isPort_iff a).1 ha with hram | hhigh
  · rw [peek_ram hram, peek_ram hram, h.ram]
  · rw [peek_mapped hhigh, peek_mapped hhigh, h.cart]

/-- Every byte of the PPU space reads as before. -/
theorem ppuPeek_eq (h : MemoryKept s t) (a : Word) : ppuPeek a t = ppuPeek a s := by
  rw [ppuPeek, h.ppu, h.cart]; rfl

end MemoryKept

/-! ## A write of the bus -/

/-- A port write leaves alone what the Mapper answers to the CPU. -/
theorem cartRead_portWrite (cart : Option Cartridge) (u : Ppu) (i : Port) (d : Byte) (a : Word) :
    ((portWrite cart u i d).1.bind fun c => cpuReadMap c.mapper a) = cart.bind fun c => cpuReadMap c.mapper a := by
  rcases portWrite_cases cart u i d with ⟨_, _, _, _, _, _, _, _, h⟩ | ⟨-, v, h⟩ <;> rw [h]
  rcases ppuWrite_cart cart u (vramAddr u) d with h | ⟨c, m, hc, h, hm⟩
  · rw [h]
  · obtain ⟨-, prg, bank, others, e, e'⟩ := ppuWriteMap_some hm
    rw [h, hc, Option.bind_some, Option.bind_some, e, e']
    rfl

/-- A write leaves alone every CPU byte outside the ports but the one of RAM it names. -/
theorem peek_memWrite {a ea : Word} (d : Byte) (s : State) (ha : isPort a = false) (hne : sameRamByte a ea = false) :
    peek a (memWrite ea d s) = peek a s := by
  rcases (not_isPort_iff a).1 ha with hram | hhigh
  · rw [peek_ram hram, peek_ram hram]
    rcases memWrite_cases ea d s with ⟨hea, h⟩ | ⟨-, -, i, -, h⟩ | ⟨-, h⟩ <;> rw [h]
    rw [ramIndex_toNat, byteAt_storeByte_other _ _ ((sameRamByte_eq_false hram (by omega)).1 hne)]
  · rw [peek_mapped hhigh, peek_mapped hhigh]
    rcases memWrite_cases ea d s with ⟨-, h⟩ | ⟨-, -, i, -, h⟩ | ⟨-, h⟩ <;> rw [h]
    rw [cartRead_portWrite]

/-- The port of index 7 is DATA. -/
theorem mod_of_portOf_data {a : Word} (h : portOf a = .data) : (a.toNat - 0x2000) % 8 = 7 := by
  rw [portOf, ← portOfIndex_mod] at h
  have index_of_data : ∀ n < 8, portOfIndex n = .data → n = 7 := by decide
  exact index_of_data _ (Nat.mod_lt _ (by decide)) h

/-- A write leaves alone every byte of the PPU space but, through port 7, the one at `v`. -/
theorem ppuPeek_memWrite {a ea : Word} (d : Byte) (s : State)
    (hne : isPortNo 7 ea = true → ppuCell s.cart a ≠ ppuCell s.cart (vramAddr s.ppu)) :
    ppuPeek a (memWrite ea d s) = ppuPeek a s := by
  rcases memWrite_cases ea d s with ⟨-, h⟩ | ⟨hlo, hhi, i, hi, h⟩ | ⟨-, h⟩ <;> rw [h]
  · rfl
  · rw [ppuPeek]
    dsimp only
    rcases portWrite_cases s.cart s.ppu i d with ⟨_, _, _, _, _, _, _, _, e⟩ | ⟨rfl, v, e⟩ <;> rw [e]
    · rfl
    · have hport : isPortNo 7 ea = true := by
        rw [isPortNo, (isPort_iff ea).2 ⟨hlo, hhi⟩, mod_of_portOf_data hi.symm]; rfl
      have hread := ppuRead_ppuWrite s.cart s.ppu (vramAddr s.ppu) a d
      rw [if_neg (hne hport)] at hread
      exact hread

/-! ## The forms that store -/

theorem modifyOperand_memory {o : Operand} {s s' : State} {ea : Word} (h : effAddr o s = (some ea, s')) (f : Byte → Byte)
    (flags : Byte → State → State) :
    modifyOperand o f flags s =
      setZN (f (memRead ea s').1) (memWrite ea (f (memRead ea s').1) (flags (memRead ea s').1 (memRead ea s').2)) := by
  simp only [modifyOperand, h]

/-- The state a storing form writes in: after the operand's read in a read-modify-write. -/
def writeState (i : Instr) (ea : Word) (s : State) : State := if readsBeforeStore i then (memRead ea s).2 else s

theorem writeState_memoryKept (i : Instr) (ea : Word) {s s' : State} (h : MemoryKept s s') :
    MemoryKept s (writeState i ea s') := by
  unfold writeState
  split
  · exact h.read ea
  · exact h

/-- A store of a register is one write. -/
theorem writeOperand_write {o : Operand} {s s' : State} {ea : Word} (h : effAddr o s = (some ea, s')) (v : State → Byte) :
    ∃ d c, writeOperand o v s = { memWrite ea d s' with cpu := c } :=
  ⟨v s', (memWrite ea (v s') s').cpu, by simp only [writeOperand, h]⟩

/-- A read-modify-write is one write after the read, and changes of CPU registers. -/
theorem modifyOperand_write {o : Operand} {s s' : State} {ea : Word} (h : effAddr o s = (some ea, s')) (f : Byte → Byte)
    {flags : Byte → State → State} (hflags : ∀ m u, flags m u = { u with cpu := (flags m u).cpu }) :
    ∃ d c, modifyOperand o f flags s = { memWrite ea d (memRead ea s').2 with cpu := c } := by
  rw [modifyOperand_memory h, hflags, memWrite_withCpu]
  exact ⟨_, _, rfl⟩

/-- A storing form is one write at its effective address, and changes of CPU registers. -/
theorem instrBody_write {i : Instr} {s s' : State} {ea : Word} (hi : storesOperand i = true)
    (h : effAddr i.operand s = (some ea, s')) :
    ∃ d c, instrBody i s = { memWrite ea d (writeState i ea s') with cpu := c } := by
  unfold instrBody
  cases i with
  | sta o | stx o | sty o => exact writeOperand_write h _
  | inc o | dec o | asl o | lsr o | rol o | ror o => exact modifyOperand_write h _ fun _ _ => rfl
  | _ => cases hi

end Sys2Proof.Machine
end

section

namespace Sys2Proof.Proofs

open Sys2Proof.Machine Sys2Proof.Claims

/-- Settles O21: up to the write a storing form makes bus reads alone, and the write changes the one byte. -/
theorem storesChangeOneByte : Obligations.StoresChangeOneByte := by
  unfold Obligations.StoresChangeOneByte
  intro i s s' t ea hi hea h
  have hkept : MemoryKept s s' := by
    have hmode := ((MemoryKept.refl s).addCyc (baseCount i)).effAddr i.operand
    rwa [hea] at hmode
  have hstate := writeState_memoryKept i ea hkept
  have hppu : (if readsBeforeStore i then (memRead ea s').2.ppu else s'.ppu) = (writeState i ea s').ppu :=
    (apply_ite State.ppu _ _ _).symm
  obtain ⟨-, rfl⟩ := exec_next_baseCount h
  obtain ⟨d, c, hbody⟩ := instrBody_write hi hea
  rw [hppu, hbody]
  refine ⟨fun a ha hne => ?_, fun a hne => ?_⟩
  · rw [peek, memRead_withCpu]
    exact (peek_memWrite d _ ha hne).trans (hstate.peek_eq ha)
  · rw [← hstate.cart] at hne
    exact (ppuPeek_memWrite d _ hne).trans (hstate.ppuPeek_eq a)

end Sys2Proof.Proofs
end

section
/-! SUPPORT. The decoder says no more than the bytes it took: the instruction an opcode decodes to has the opcode's operand
form and encodes to the bytes decoded (30_encoding.md R140, R143). -/

namespace Sys2Proof

/-! ## Operand forms -/

theorem Mode.operandBytes_le (m : Mode) : m.operandBytes ≤ 2 := by cases m <;> decide

theorem Operand.eq_imp_of_mode {o : Operand} (h : o.mode = .imp) : o = .imp := by
  cases o with
  | imp => rfl
  | _ => cases h

/-- The bytes of the form a mode makes of a list are the operand bytes of the mode, from its start. -/
theorem Mode.bytes_operand (m : Mode) {l : List Byte} (h : m.operandBytes ≤ l.length) :
    (m.operand (l.getD 0 0) (l.getD 1 0)).bytes = l.take m.operandBytes := by
  cases m with
  | imp | acc => rfl
  | imm | zp | zpx | zpy | rel | izx | izy =>
    obtain _ | ⟨b, l⟩ := l
    · cases h
    · rfl
  | abs | abx | aby | ind =>
    obtain _ | ⟨lo, _ | ⟨hi, l⟩⟩ := l
    · cases h
    · simp [Mode.operandBytes] at h
    · simp [Mode.operand, Operand.bytes, Mode.operandBytes]

/-- The instruction of a kind carries the operand form it is given, or none. -/
theorem Kind.instr_operand (k : Kind) (op : Byte) (o : Operand) :
    (k.instr op o).operand = o ∨ (k.instr op o).operand = .imp := by
  cases k <;> simp [Kind.instr, Instr.operand]

/-! ## The decoded instruction -/

/-- The instruction an opcode decodes to has the operand form that the mode of the opcode makes. -/
theorem operand_decode (op b1 b2 : Byte) : (decode op b1 b2).operand = (entry op).mode.operand b1 b2 := by
  obtain ⟨-, hmode⟩ := entry_of_opcode (opcode_of_decode op b1 b2)
  rcases Kind.instr_operand (entry op).kind op ((entry op).mode.operand b1 b2) with h | h
  · exact h
  · have himp : (entry op).mode = .imp := hmode.trans (congrArg Operand.mode h)
    exact h.trans (Operand.eq_imp_of_mode (by rw [Mode.operand_mode, himp])).symm

/-- The instruction an opcode decodes to encodes to that opcode and the bytes of its operand form. -/
theorem encode_decode (op b1 b2 : Byte) :
    encode (decode op b1 b2) = op :: ((entry op).mode.operand b1 b2).bytes := by
  rw [encode, opcode_of_decode, operand_decode]

/-- A list of bytes that decodes is an opcode and at least the operand bytes of its mode; the instruction is the opcode's and
the rest is what follows them. -/
theorem decodeBytes_eq_ok {bytes : List Byte} {i : Instr} {rest : List Byte} (h : decodeBytes bytes = .ok i rest) :
    ∃ op l, bytes = op :: l ∧ (entry op).mode.operandBytes ≤ l.length ∧
      i = decode op (l.getD 0 0) (l.getD 1 0) ∧ rest = l.drop (entry op).mode.operandBytes := by
  obtain _ | ⟨op, l⟩ := bytes
  · cases h
  · rw [decodeBytes] at h
    split at h
    · cases h
    · next hlong =>
      cases h
      exact ⟨op, l, rfl, Nat.le_of_not_lt hlong, rfl, rfl⟩

end Sys2Proof
end

section

namespace Sys2Proof.Proofs

open Sys2Proof.Machine

/-- Settles O2: the operand form keeps every operand byte that the decoder took. -/
theorem decodedBytesAreTheEncoding : Obligations.DecodedBytesAreTheEncoding := by
  unfold Obligations.DecodedBytesAreTheEncoding
  intro bytes i rest h
  obtain ⟨op, l, rfl, hlong, rfl, rfl⟩ := decodeBytes_eq_ok h
  refine ⟨wellFormed_decode _ _ _, ?_⟩
  rw [encode_decode, Mode.bytes_operand _ hlong, List.cons_append, List.take_append_drop]

/-- Settles O3: with two bytes after it, no opcode runs out of operand bytes. -/
theorem everyOpcodeDecodes : Obligations.EveryOpcodeDecodes := by
  unfold Obligations.EveryOpcodeDecodes
  intro op b1 b2 rest
  have hn := (entry op).mode.operandBytes_le
  have hlong : ¬ (b1 :: b2 :: rest).length < (entry op).mode.operandBytes := by
    rw [List.length_cons, List.length_cons]; omega
  refine ⟨decode op b1 b2, (entry op).mode.operandBytes, hn, ?_, wellFormed_decode _ _ _, ?_, ?_⟩
  · rw [decodeBytes, if_neg hlong]; rfl
  · rw [encode_decode, List.head?_cons]
  · rw [encode_decode, List.length_cons, (operand_of_bytes _ []).1, Mode.operand_mode]

/-- Settles O4: the thirteen words are fixed, so the decoder is evaluated on each. -/
theorem writtenOutWordsDecode : Obligations.WrittenOutWordsDecode := by
  unfold Obligations.WrittenOutWordsDecode
  decide +kernel

/-- Settles O10: every meaning asks for the opcode of its term first. -/
theorem termsWithoutAnOpcodeAreRefused : Obligations.TermsWithoutAnOpcodeAreRefused := by
  unfold Obligations.TermsWithoutAnOpcodeAreRefused
  intro i s h
  have hnone : i.opcode? = none := by rwa [wellFormed_iff_opcode, Option.isSome_eq_false_iff, Option.isNone_iff_eq_none] at h
  rw [exec_eq_instrBody, withCycles_of_none _ s hnone]

end Sys2Proof.Proofs
end

section
/-! SUPPORT. The operand of a reading form (40_cpu_step_and_addressing.md R163, R186), and the addressing modes as an address
and a page-cross cycle (R168, R184). -/

namespace Sys2Proof.Machine

open Sys2Proof.Claims

/-! ## The operand -/

theorem readOperand_imm (d : Byte) (s : State) : readOperand (.imm d) s = (d, s) := rfl

theorem readOperand_acc (s : State) : readOperand .acc s = (s.cpu.a, s) := rfl

/-- A form with an effective address, but for IMM, reads its operand there. -/
theorem readOperand_of_effAddr {o : Operand} {s s' : State} {ea : Word} (hi : ∀ d, o ≠ .imm d)
    (h : effAddr o s = (some ea, s')) : readOperand o s = memRead ea s' := by
  unfold readOperand
  split
  · next d => exact absurd rfl (hi d)
  · simp only [h]

/-- The forms without an address are the implied one and the accumulator's. -/
theorem operand_of_effAddr_none {o : Operand} {s : State} (h : (effAddr o s).1 = none) : o = .imp ∨ o = .acc := by
  cases o with
  | imp => exact .inl rfl
  | acc => exact .inr rfl
  | _ => cases h

/-! ## The page-cross cycle -/

theorem hiByte_toNat (a : Word) : (hiByte a).toNat = a.toNat / 256 := by
  rw [hiByte, BitVec.extractLsb'_toNat, Nat.shiftRight_eq_div_pow, Nat.mod_eq_of_lt (by omega)]

theorem pageCross_eq_otherPage (base ea : Word) : pageCross base ea = otherPage base ea := by
  have hne : hiByte ea = hiByte base ↔ base.toNat / 256 = ea.toNat / 256 := by
    rw [BitVec.toNat_eq, hiByte_toNat, hiByte_toNat, eq_comm]
  rw [pageCross, otherPage, Bool.eq_iff_iff, bne_iff_ne, bne_iff_ne, ne_eq, hne]

theorem zext16_eq_append (b : Byte) : zext16 b = 0#8 ++ b := by revert b; decide +kernel

theorem addCyc_zero (s : State) : s.addCyc 0 = s := rfl

theorem indexed_eq (base : Word) (index : Byte) (s : State) :
    indexed base index s =
      (base + (0#8 ++ index), s.addCyc (if otherPage base (base + (0#8 ++ index)) then 1 else 0)) := by
  rw [indexed, zext16_eq_append, pageCross_eq_otherPage, apply_ite s.addCyc, addCyc_zero]

/-- A pointer of page zero is the word that stands there. -/
theorem zeroPagePointer_eq_word (d : Byte) (s : State) : zeroPagePointer d s = (zeroPageWord s d, s) := zeroPagePointer_eq d s

/-- Every mode but IND leaves the state as it is but for its page-cross cycle. -/
theorem effAddr_state {o : Operand} (h : o.mode ≠ .ind) (s : State) : (effAddr o s).2 = s.addCyc (modeCycles o s) := by
  cases o with
  | abx a | aby a => simp only [effAddr, indexed_eq, modeCycles]
  | izx d => rw [effAddr, zeroPagePointer_eq_word]; rfl
  | izy d => simp only [effAddr, zeroPagePointer_eq_word, indexed_eq, modeCycles]
  | ind a => exact absurd rfl h
  | _ => rfl

theorem modeCycles_addCyc (o : Operand) (s : State) (n : Nat) : modeCycles o (s.addCyc n) = modeCycles o s := by
  cases o <;> rfl

/-! ## Placeholders -/

theorem miaMode_ne_ind (op : Byte) : miaMode op ≠ some .ind := by revert op; decide +kernel

/-- A well-formed placeholder's mode is that of its opcode, and not IND. -/
theorem opcode_of_mia_wellFormed {op : Byte} {o : Operand} (h : (Instr.mia op o).WellFormed = true) :
    (Instr.mia op o).opcode? = some op ∧ o.mode ≠ .ind := by
  have hmode : miaMode op = some o.mode := by simpa [Instr.WellFormed] using h
  refine ⟨by rw [Instr.opcode?, if_pos hmode], fun e => ?_⟩
  rw [e] at hmode
  exact miaMode_ne_ind op hmode

end Sys2Proof.Machine
end

section

namespace Sys2Proof.Proofs

open Sys2Proof.Machine Sys2Proof.Claims

/-- Settles O24, form by form. -/
theorem operandIsReadOnce : Obligations.OperandIsReadOnce := by
  unfold Obligations.OperandIsReadOnce
  intro o s s' ea
  refine ⟨?_, ?_, readOperand_of_effAddr⟩
  · rintro d rfl
    exact readOperand_imm d s
  · rintro rfl
    exact readOperand_acc s

/-- Settles O40: no placeholder has the mode IND, the one that reads outside page zero. -/
theorem placeholderResult : Obligations.PlaceholderResult := by
  unfold Obligations.PlaceholderResult
  intro s op o h
  obtain ⟨hop, hind⟩ := opcode_of_mia_wellFormed h
  have hbody : instrBody (.mia op o) (s.addCyc (Config.miaCycles op)) =
      ((s.addCyc (Config.miaCycles op)).addCyc (modeCycles o s)).markMia := by
    rw [instrBody, effAddr_state hind, modeCycles_addCyc]
  refine ⟨by rw [encode, hop], ?_⟩
  rw [exec_eq_instrBody, withCycles_of_opcode _ s hop, cycles_of_opcode hop]
  exact congrArg Host.Outcome.next hbody

end Sys2Proof.Proofs
end

section
/-! SUPPORT. The value of a register after each operation of the machine (30_encoding.md R146). -/

namespace Sys2Proof.Machine

open Sys2Proof.Claims

variable (r : Reg) (s : State)

/-! ## Register updates -/

@[simp] theorem reg_setA (v : Byte) : reg r (s.setA v) = if r = .a then v else reg r s := by cases r <;> rfl
@[simp] theorem reg_setX (v : Byte) : reg r (s.setX v) = if r = .x then v else reg r s := by cases r <;> rfl
@[simp] theorem reg_setY (v : Byte) : reg r (s.setY v) = if r = .y then v else reg r s := by cases r <;> rfl
@[simp] theorem reg_setSp (v : Byte) : reg r (s.setSp v) = if r = .sp then v else reg r s := by cases r <;> rfl
@[simp] theorem reg_setPc (v : Word) : reg r (s.setPc v) = reg r s := by cases r <;> rfl
@[simp] theorem reg_setP (v : Byte) : reg r (s.setP v) = reg r s := by cases r <;> rfl
@[simp] theorem reg_addCyc (n : Nat) : reg r (s.addCyc n) = reg r s := by cases r <;> rfl
@[simp] theorem reg_markMia : reg r s.markMia = reg r s := by cases r <;> rfl

/-! ## Flags -/

@[simp] theorem reg_setC (b : Bool) : reg r (s.setC b) = reg r s := reg_setP r s _
@[simp] theorem reg_setI (b : Bool) : reg r (s.setI b) = reg r s := reg_setP r s _
@[simp] theorem reg_setD (b : Bool) : reg r (s.setD b) = reg r s := reg_setP r s _
@[simp] theorem reg_setV (b : Bool) : reg r (s.setV b) = reg r s := reg_setP r s _
@[simp] theorem reg_setZN (v : Byte) : reg r (setZN v s) = reg r s := by cases r <;> rfl
@[simp] theorem reg_compareBytes (q m : Byte) : reg r (compareBytes q m s) = reg r s := by cases r <;> rfl
@[simp] theorem reg_bitTest (m : Byte) : reg r (bitTest m s) = reg r s := by cases r <;> rfl
@[simp] theorem reg_addWithCarry (m : Byte) :
    reg r (addWithCarry m s) = if r = .a then adcResult s.cpu.a m s.flagC else reg r s := by cases r <;> rfl

/-! ## The bus and the stack -/

theorem reg_congr {r : Reg} {s t : State} (h : t.cpu = s.cpu) : reg r t = reg r s := by unfold reg; rw [h]

@[simp] theorem reg_memRead (a : Word) : reg r (memRead a s).2 = reg r s := reg_congr (memRead_cpu a s)
@[simp] theorem reg_memWrite (a : Word) (d : Byte) : reg r (memWrite a d s) = reg r s := reg_congr (memWrite_cpu a d s)
@[simp] theorem reg_readVector (vec : Word) : reg r (readVector vec s).2 = reg r s := by simp [readVector]

@[simp] theorem reg_push (v : Byte) : reg r (push v s) = if r = .sp then s.cpu.sp - 1 else reg r s := by simp [push]
@[simp] theorem reg_pop : reg r (pop s).2 = if r = .sp then s.cpu.sp + 1 else reg r s := by simp [pop_frame]

/-! ## Operands -/

@[simp] theorem reg_indexed (base : Word) (index : Byte) : reg r (indexed base index s).2 = reg r s := by
  unfold indexed
  dsimp only
  split
  · exact reg_addCyc r s 1
  · rfl

@[simp] theorem reg_effAddr (o : Operand) : reg r (effAddr o s).2 = reg r s := by
  cases o <;> simp [effAddr, zeroPagePointer, indirectPointer]

@[simp] theorem reg_readOperand (o : Operand) : reg r (readOperand o s).2 = reg r s := by
  unfold readOperand
  split
  · rfl
  · dsimp only
    split <;> simp

@[simp] theorem reg_logicA (f : Byte → Byte → Byte) (o : Operand) (h : r ≠ .a) : reg r (logicA f o s) = reg r s := by
  simp [logicA, h]

theorem reg_writeOperand {r : Reg} {s : State} {o : Operand} (v : State → Byte)
    (h : (effAddr o s).1 = none → r ≠ .a) : reg r (writeOperand o v s) = reg r s := by
  unfold writeOperand
  dsimp only
  split
  · simp
  · next hnone => simp [h hnone]

theorem reg_modifyOperand {r : Reg} {s : State} {o : Operand} (f : Byte → Byte) {flags : Byte → State → State}
    (hflags : ∀ m u, reg r (flags m u) = reg r u) (h : (effAddr o s).1 = none → r ≠ .a) :
    reg r (modifyOperand o f flags s) = reg r s := by
  unfold modifyOperand
  dsimp only
  split
  · simp [hflags]
  · next hnone => simp [hflags, h hnone]

/-! ## Control transfer -/

@[simp] theorem reg_branch (cond : State → Bool) (o : Operand) : reg r (branch cond o s) = reg r s := by
  unfold branch
  dsimp only
  split
  · split
    · split <;> simp
    · simp
  · simp

@[simp] theorem reg_jumpTo (o : Operand) : reg r (jumpTo o s) = reg r s := by
  unfold jumpTo
  dsimp only
  split <;> simp

@[simp] theorem reg_callSubroutine (o : Operand) (h : r ≠ .sp) : reg r (callSubroutine o s) = reg r s := by
  unfold callSubroutine
  dsimp only
  split <;> simp [h]

/-! ## Instructions -/

/-- The body of a well-formed instruction keeps the registers it does not write. -/
theorem reg_instrBody {i : Instr} {r : Reg} (hwf : i.WellFormed = true) (hr : r ∉ writesReg i) (s : State) :
    reg r (instrBody i s) = reg r s := by
  unfold instrBody
  cases i with
  | lda o | adc o | sbc o | and o | ora o | eor o | txa | tya =>
    have ha : r ≠ .a := List.ne_of_not_mem_cons hr
    simp [ha]
  | ldx o | tax | tsx | inx | dex =>
    have hx : r ≠ .x := List.ne_of_not_mem_cons hr
    simp [hx]
  | ldy o | tay | iny | dey =>
    have hy : r ≠ .y := List.ne_of_not_mem_cons hr
    simp [hy]
  | sta o | stx o | sty o =>
    refine reg_writeOperand _ fun hnone => ?_
    obtain rfl | rfl := operand_of_effAddr_none hnone <;> cases hwf
  | inc o | dec o =>
    refine reg_modifyOperand _ (fun _ _ => rfl) fun hnone => ?_
    obtain rfl | rfl := operand_of_effAddr_none hnone <;> cases hwf
  | asl o | lsr o | rol o | ror o =>
    refine reg_modifyOperand _ (fun m u => reg_setC r u _) fun hnone => ?_
    obtain rfl | rfl := operand_of_effAddr_none hnone
    · cases hwf
    · exact List.ne_of_not_mem_cons hr
  | txs | pha | php | plp | jsr o | rts | rti | brk =>
    have hsp : r ≠ .sp := List.ne_of_not_mem_cons hr
    simp [hsp, returnFromSubroutine, returnFromInterrupt, interrupt]
  | pla =>
    have ha : r ≠ .a := List.ne_of_not_mem_cons hr
    have hsp : r ≠ .sp := List.ne_of_not_mem_cons (List.not_mem_of_not_mem_cons hr)
    simp [ha, hsp]
  | bit o | cmp o | cpx o | cpy o | jmp o => simp
  | bpl o | bmi o | bvc o | bvs o | bcc o | bcs o | bne o | beq o => simp
  | clc | sec | cli | sei | cld | sed | clv => simp
  | nop => rfl
  | mia op o => simp

end Sys2Proof.Machine
end

section

namespace Sys2Proof.Proofs

open Sys2Proof.Machine Sys2Proof.Claims

/-- Settles O16: what `exec` answers next is the body of a well-formed instruction after a change of the cycle count. -/
theorem registersNotWrittenKeepTheirValue : Obligations.RegistersNotWrittenKeepTheirValue := by
  unfold Obligations.RegistersNotWrittenKeepTheirValue
  intro i s t h r hr
  obtain ⟨hwf, rfl⟩ := exec_next_baseCount h
  rw [reg_instrBody hwf hr, reg_addCyc]

end Sys2Proof.Proofs
end

section
/-! SUPPORT. The stack operations as one store and one read of page 1, and the target of a branch
(40_cpu_step_and_addressing.md R172, R180, R181). -/

namespace Sys2Proof.Machine

open Sys2Proof.Claims

/-! ## The stack -/

theorem push_eq (v : Byte) (s : State) :
    push v s = { withCpu s (fun c => { c with sp := c.sp - 1 }) with ram := storeByte s.ram (stackSlot s.cpu.sp) v } := by
  rw [push, memWrite_stack]; rfl

theorem pop_eq (s : State) :
    pop s = (byteAt s.ram (stackSlot (s.cpu.sp + 1)), withCpu s fun c => { c with sp := c.sp + 1 }) :=
  Prod.ext (pop_value s) (pop_frame s)

/-- A pop right after a push answers the byte pushed and restores `SP`. -/
theorem pop_push (v : Byte) (s : State) : (pop (push v s)).1 = v ∧ (pop (push v s)).2.cpu = s.cpu := by
  have hsp : (push v s).cpu.sp + 1 = s.cpu.sp := by rw [push_sp]; bv_omega
  constructor
  · rw [pop_value, hsp, push_ram, byteAt_storeByte_same]
  · rw [pop_frame, hsp, push_frame]; rfl

/-! ## Branch targets -/

/-- `PC` plus the sign-extended offset is the target the rules state. -/
theorem pc_add_sext16 (s : State) (d : Byte) : s.cpu.pc + sext16 d = branchTarget s d := by
  rw [branchTarget, BitVec.ofInt_add, BitVec.ofInt_natCast, BitVec.ofNat_toNat, BitVec.setWidth_eq]; rfl

end Sys2Proof.Machine
end

section

namespace Sys2Proof.Proofs

open Sys2Proof.Machine Sys2Proof.Claims

/-- Settles O37: a push is one store and a pop one read in page 1 of RAM. -/
theorem pushThenPop : Obligations.PushThenPop := by
  unfold Obligations.PushThenPop
  intro s v
  exact ⟨push_eq v s, pop_eq s, pop_push v s⟩

/-- Settles O23, mode by mode. -/
theorem effectiveAddresses : Obligations.EffectiveAddresses := by
  unfold Obligations.EffectiveAddresses
  intro s d a
  refine ⟨rfl, rfl, rfl, ?_, ?_, ?_, rfl, ?_, ?_, ?_, ?_, ?_⟩
  · rw [effAddr, zext16_eq_append]
  · rw [effAddr, zext16_eq_append]
  · rw [effAddr, zext16_eq_append]
  · simp only [effAddr, indexed_eq, modeCycles]
  · simp only [effAddr, indexed_eq, modeCycles]
  · rw [effAddr, pc_add_sext16]
  · rw [effAddr, zeroPagePointer_eq_word]
  · simp only [effAddr, zeroPagePointer_eq_word, indexed_eq, modeCycles]

end Sys2Proof.Proofs
end

section
/-! SUPPORT. The fetch of an instruction whose bytes stand at `PC` outside the ports (40_cpu_step_and_addressing.md R160,
R161). -/

namespace Sys2Proof.Machine

open Sys2Proof.Claims

/-- A read of a byte that stands outside the ports answers it and changes nothing. -/
theorem memRead_of_codeAt {bytes : List Byte} {a : Word} {s : State} (h : codeAt bytes a s) {k : Nat}
    (hk : k < bytes.length) : memRead (a + BitVec.ofNat 16 k) s = (bytes.getD k 0, s) := by
  obtain ⟨hport, hbyte⟩ := h k hk
  exact Prod.ext hbyte (memRead_snd ((not_isPort_iff _).1 hport))

/-- An opcode with its operand bytes at `PC` is fetched, and `PC` is moved past them. -/
theorem fetchInstr_of_codeAt {op : Byte} {l : List Byte} {s : State} (hl : l.length = (entry op).mode.operandBytes)
    (h : codeAt (op :: l) s.cpu.pc s) :
    fetchInstr s =
      (decode op (l.getD 0 0) (l.getD 1 0), s.setPc (s.cpu.pc + BitVec.ofNat 16 (op :: l).length)) := by
  have hfetch := Proofs.fetchTakesOpcodeThenOperandBytes s
  have h0 : memRead s.cpu.pc s = (op, s) := by
    simpa using memRead_of_codeAt h (k := 0) (by simp)
  dsimp only at hfetch
  rw [h0, ← hl] at hfetch
  rw [hfetch]
  match l, hl, h with
  | [], _, _ => rfl
  | [b], _, h =>
    have h1 : memRead (s.cpu.pc + 1) s = (b, s) := memRead_of_codeAt h (k := 1) (by simp)
    rw [h1]; rfl
  | [lo, hi], _, h =>
    have h1 : memRead (s.cpu.pc + 1) s = (lo, s) := memRead_of_codeAt h (k := 1) (by simp)
    have h2 : memRead (s.cpu.pc + 2) s = (hi, s) := memRead_of_codeAt h (k := 2) (by simp)
    rw [h1, h2]; rfl
  | _ :: _ :: _ :: _, hl, _ =>
    have hle := hl.trans_le (entry op).mode.operandBytes_le
    simp at hle

/-- The fetch at the bytes of a well-formed instruction. -/
theorem fetchInstr_of_encode {i : Instr} {s : State} (hi : i.WellFormed = true) (h : codeAt (encode i) s.cpu.pc s) :
    fetchInstr s = (i, s.setPc (s.cpu.pc + BitVec.ofNat 16 (encode i).length)) := by
  obtain ⟨_, hop⟩ := opcode_of_wellFormed hi
  obtain ⟨op, l, henc, hlong, hdecode, hrest⟩ := decodeBytes_eq_ok (decodeBytes_encode hop [])
  have hl : l.length = (entry op).mode.operandBytes := Nat.le_antisymm (List.drop_eq_nil_iff.1 hrest.symm) hlong
  rw [List.append_nil] at henc
  rw [henc] at h ⊢
  rw [fetchInstr_of_codeAt hl h, ← hdecode]

end Sys2Proof.Machine
end

section

namespace Sys2Proof.Proofs

open Sys2Proof.Machine

/-- Settles O5: with the default parameters the CPU's part of the tick is the fetch and `exec`. -/
theorem stepRunsTheDecodedInstruction : Obligations.StepRunsTheDecodedInstruction := by
  unfold Obligations.StepRunsTheDecodedInstruction
  intro s i t htick hi hcode
  have hcpu : cpuTick Config.params t.tick = true := by
    rw [show t.tick = s.tick from pollNmi_tick _, cpuTick, htick]; rfl
  have hstep : step s = mapNext countTick (cpuStep t) := if_pos hcpu
  rw [hstep, cpuStep, fetchInstr_of_encode hi hcode]

end Sys2Proof.Proofs
end

section
/-! SUPPORT. The instructions that neither store to their operand nor push make bus reads and changes of CPU registers alone
(40_cpu_step_and_addressing.md R183). -/

namespace Sys2Proof.Machine

open Sys2Proof.Claims

namespace MemoryKept

variable {s t : State}

/-- Changes of CPU registers keep every memory; the register updates and flag computations are such changes. -/
theorem cpu (h : MemoryKept s t) (c : Cpu) : MemoryKept s { t with cpu := c } := ⟨h.ram, h.cart, h.ppu⟩

theorem readOperand (h : MemoryKept s t) (o : Operand) : MemoryKept s (Machine.readOperand o t).2 := by
  unfold Machine.readOperand
  split
  · exact h
  · dsimp only
    split
    · exact (h.effAddr _).read _
    · exact h.effAddr _

theorem jumpTo (h : MemoryKept s t) (o : Operand) : MemoryKept s (Machine.jumpTo o t) := by
  unfold Machine.jumpTo
  dsimp only
  split
  · exact (h.effAddr o).cpu _
  · exact h.effAddr o

theorem branch (h : MemoryKept s t) (cond : State → Bool) (o : Operand) : MemoryKept s (Machine.branch cond o t) := by
  unfold Machine.branch
  dsimp only
  split
  · split
    · split <;> exact (h.effAddr o).cpu _
    · exact h.effAddr o
  · exact h.effAddr o

theorem pop (h : MemoryKept s t) : MemoryKept s (Machine.pop t).2 := (h.cpu _).read _

/-- The body of an instruction that neither stores nor pushes; a shift or rotate stores but in its ACC form. -/
theorem instrBody {i : Instr} (hi : storesOperand i = false) (hp : pushes i = 0) (h : MemoryKept s t) :
    MemoryKept s (Machine.instrBody i t) := by
  unfold Machine.instrBody
  cases i with
  | lda o | ldx o | ldy o | adc o | sbc o | and o | ora o | eor o | bit o | cmp o | cpx o | cpy o =>
    exact (h.readOperand o).cpu _
  | sta o | stx o | sty o | inc o | dec o => cases hi
  | asl o | lsr o | rol o | ror o =>
    obtain rfl : o = .acc := by simpa [storesOperand] using hi
    exact h.cpu _
  | tax | tay | txa | tya | tsx | txs | inx | iny | dex | dey => exact h.cpu _
  | clc | sec | cli | sei | cld | sed | clv => exact h.cpu _
  | nop => exact h
  | jmp o => exact h.jumpTo o
  | bpl o | bmi o | bvc o | bvs o | bcc o | bcs o | bne o | beq o => exact h.branch _ o
  | pla | plp => exact h.pop.cpu _
  | rts => exact h.pop.pop.cpu _
  | rti => exact ((h.pop.cpu _).pop.pop).cpu _
  | pha | php | jsr o | brk => cases hp
  | mia op o => exact (h.effAddr o).cpu _

end MemoryKept

end Sys2Proof.Machine
end

section

namespace Sys2Proof.Proofs

open Sys2Proof.Machine

/-- Settles O20: bus reads and changes of CPU registers keep every memory. -/
theorem formsThatStoreNothingKeepMemory : Obligations.FormsThatStoreNothingKeepMemory := by
  unfold Obligations.FormsThatStoreNothingKeepMemory
  intro i s t hi hp h
  obtain ⟨n, -, rfl⟩ := exec_next h
  have hkept := ((MemoryKept.refl s).addCyc n).instrBody hi hp
  exact ⟨fun _ ha => hkept.peek_eq ha, hkept.ppuPeek_eq, hkept.ram, hkept.cart, hkept.ppu⟩

end Sys2Proof.Proofs
end

section
/-! SUPPORT. The cycle count along an instruction: its mode's cycle, its branch's cycles and no other
(40_cpu_step_and_addressing.md R184, 44_control_flow.md R263). -/

namespace Sys2Proof.Machine

open Sys2Proof.Claims

/-! ## Branches -/

/-- The flags the branches test, as `branchTaken` takes them from the status byte. -/
theorem branchFlags_eq (s : State) :
    s.flagN = (s.cpu.p &&& 0x80 != 0) ∧ s.flagV = (s.cpu.p &&& 0x40 != 0) ∧
      s.flagC = (s.cpu.p &&& 0x01 != 0) ∧ s.flagZ = (s.cpu.p &&& 0x02 != 0) := by
  rw [State.flagN, State.flagV, State.flagC, State.flagZ]
  generalize s.cpu.p = p
  revert p
  decide +kernel

/-- A branch taken adds 1 cycle, and 1 more into another page; one not taken does nothing. -/
theorem branch_rel {cond : State → Bool} {taken : Bool} {s : State} (d : Byte) (h : cond s = taken) :
    branch cond (.rel d) s =
      if taken then
        (s.addCyc (if otherPage s.cpu.pc (branchTarget s d) then 2 else 1)).setPc (branchTarget s d)
      else s := by
  subst h
  simp only [branch, effAddr, pc_add_sext16]
  split
  · change (if pageCross s.cpu.pc (branchTarget s d) then (s.addCyc 1).addCyc 1 else s.addCyc 1).setPc _ = _
    rw [pageCross_eq_otherPage]
    split <;> rfl
  · rfl

theorem miaMode_ne_rel (op : Byte) : miaMode op ≠ some .rel := by revert op; decide +kernel

/-- The body of each branch, by the flag condition of its rule. -/
theorem instrBody_branch {i : Instr} {d : Byte} (hi : i.WellFormed = true) (ho : i.operand = .rel d) (s : State) :
    instrBody i s =
      if branchTaken i s then
        (s.addCyc (if otherPage s.cpu.pc (branchTarget s d) then 2 else 1)).setPc (branchTarget s d)
      else s := by
  unfold instrBody
  cases i with
  | bpl o | bmi o | bvc o | bvs o | bcc o | bcs o | bne o | beq o =>
    obtain rfl : o = .rel d := ho
    obtain ⟨hN, hV, hC, hZ⟩ := branchFlags_eq s
    exact branch_rel d (by simp [branchTaken, bne, hN, hV, hC, hZ])
  | mia op o =>
    obtain rfl : o = .rel d := ho
    exact absurd (beq_iff_eq.1 hi) (miaMode_ne_rel op)
  | lda o | ldx o | ldy o | sta o | stx o | sty o | adc o | sbc o | and o | ora o | eor o | bit o | cmp o | cpx o | cpy o
  | inc o | dec o | asl o | lsr o | rol o | ror o | jmp o | jsr o =>
    obtain rfl : o = .rel d := ho
    cases hi
  | _ => cases ho

theorem operand_of_mode_rel {o : Operand} (h : o.mode = .rel) : ∃ d, o = .rel d := by
  cases o with
  | rel d => exact ⟨d, rfl⟩
  | _ => cases h

/-- A well-formed branch adds its branch's cycles. -/
theorem cyc_instrBody_branch {i : Instr} {d : Byte} (hi : i.WellFormed = true) (ho : i.operand = .rel d) (s : State) :
    (instrBody i s).cpu.cyc = s.cpu.cyc + branchCycles i s := by
  rw [instrBody_branch hi ho, branchCycles, ho]
  dsimp only
  split <;> rfl

/-! ## Operands -/

@[simp] theorem cyc_indexed (base : Word) (index : Byte) (s : State) :
    (indexed base index s).2.cpu.cyc = s.cpu.cyc + (if otherPage base (base + (0#8 ++ index)) then 1 else 0) := by
  rw [indexed_eq]; rfl

/-- IND, the one mode that may read a port, adds no cycle either. -/
@[simp] theorem cyc_effAddr (o : Operand) (s : State) : (effAddr o s).2.cpu.cyc = s.cpu.cyc + modeCycles o s := by
  by_cases h : o.mode = .ind
  · cases o with
    | ind a => simp [effAddr, indirectPointer, modeCycles]
    | _ => cases h
  · rw [effAddr_state h]; rfl

@[simp] theorem cyc_readOperand (o : Operand) (s : State) :
    (readOperand o s).2.cpu.cyc = s.cpu.cyc + modeCycles o s := by
  unfold readOperand
  split
  · rfl
  · dsimp only
    split <;> simp

@[simp] theorem cyc_writeOperand (o : Operand) (v : State → Byte) (s : State) :
    (writeOperand o v s).cpu.cyc = s.cpu.cyc + modeCycles o s := by
  unfold writeOperand
  dsimp only
  split <;> simp

theorem cyc_modifyOperand (o : Operand) (f : Byte → Byte) {flags : Byte → State → State}
    (hflags : ∀ m u, (flags m u).cpu.cyc = u.cpu.cyc) (s : State) :
    (modifyOperand o f flags s).cpu.cyc = s.cpu.cyc + modeCycles o s := by
  unfold modifyOperand
  dsimp only
  split <;> simp [hflags]

@[simp] theorem cyc_logicA (f : Byte → Byte → Byte) (o : Operand) (s : State) :
    (logicA f o s).cpu.cyc = s.cpu.cyc + modeCycles o s := by
  simp [logicA]

/-! ## Jumps and the stack -/

@[simp] theorem cyc_jumpTo (o : Operand) (s : State) : (jumpTo o s).cpu.cyc = s.cpu.cyc + modeCycles o s := by
  unfold jumpTo
  dsimp only
  split <;> simp

@[simp] theorem cyc_push (v : Byte) (s : State) : (push v s).cpu.cyc = s.cpu.cyc := by rw [push_frame]

@[simp] theorem cyc_pop (s : State) : (pop s).2.cpu.cyc = s.cpu.cyc := by rw [pop_frame]; rfl

@[simp] theorem cyc_callSubroutine (o : Operand) (s : State) :
    (callSubroutine o s).cpu.cyc = s.cpu.cyc + modeCycles o s := by
  unfold callSubroutine
  dsimp only
  split <;> simp

@[simp] theorem cyc_interrupt (vec : Word) (s : State) : (interrupt vec s).cpu.cyc = s.cpu.cyc := by
  simp [interrupt, readVector]

/-! ## Instructions -/

theorem branchCycles_eq_zero {i : Instr} (h : i.operand.mode ≠ .rel) (s : State) : branchCycles i s = 0 := by
  unfold branchCycles
  split
  · next d ho => exact absurd (congrArg Operand.mode ho) h
  · rfl

/-- An instruction that is no branch adds its mode's cycle. -/
theorem cyc_instrBody_of_mode_ne_rel {i : Instr} (hi : i.WellFormed = true) (h : i.operand.mode ≠ .rel) (s : State) :
    (instrBody i s).cpu.cyc = s.cpu.cyc + modeCycles i.operand s := by
  unfold instrBody
  cases i with
  | lda o | ldx o | ldy o | adc o | sbc o | bit o | cmp o | cpx o | cpy o => exact cyc_readOperand o s
  | and o | ora o | eor o => exact cyc_logicA _ o s
  | sta o | stx o | sty o => exact cyc_writeOperand o _ s
  | inc o | dec o => exact cyc_modifyOperand o _ (fun _ _ => rfl) s
  | asl o | lsr o | rol o | ror o => exact cyc_modifyOperand o _ (fun _ u => setC_cyc u _) s
  | jmp o => exact cyc_jumpTo o s
  | jsr o => exact cyc_callSubroutine o s
  | bpl o | bmi o | bvc o | bvs o | bcc o | bcs o | bne o | beq o => exact absurd (beq_iff_eq.1 hi) h
  | mia op o => exact cyc_effAddr o s
  | pha | php => exact cyc_push _ s
  | pla | plp => exact cyc_pop s
  | rts => exact (cyc_pop _).trans (cyc_pop s)
  | rti => exact (cyc_pop _).trans ((cyc_pop _).trans (cyc_pop s))
  | brk => exact cyc_interrupt _ _
  | _ => rfl

/-- A well-formed instruction adds its mode's cycle and its branch's cycles. -/
theorem cyc_instrBody {i : Instr} (hi : i.WellFormed = true) (s : State) :
    (instrBody i s).cpu.cyc = s.cpu.cyc + modeCycles i.operand s + branchCycles i s := by
  by_cases h : i.operand.mode = .rel
  · obtain ⟨d, ho⟩ := operand_of_mode_rel h
    rw [cyc_instrBody_branch hi ho, ho]; rfl
  · rw [cyc_instrBody_of_mode_ne_rel hi h, branchCycles_eq_zero h]; rfl

/-- The cycle count decides no branch. -/
theorem branchCycles_addCyc (i : Instr) (s : State) (n : Nat) : branchCycles i (s.addCyc n) = branchCycles i s := by
  have htaken : branchTaken i (s.addCyc n) = branchTaken i s := by cases i <;> rfl
  rw [branchCycles, htaken]; rfl

/-- The moves of an instruction leave the countdown alone. -/
theorem Moves.wait {i : Instr} {s t : State} (h : Moves i s t) : t.wait = s.wait := by
  induction h with
  | refl => rfl
  | read _ a ih => rwa [memRead_wait]
  | write _ a d ih => rwa [memWrite_wait]
  | cpu _ c hc ih => exact ih

/-- A well-formed instruction runs its body after its base count. -/
theorem exec_of_wellFormed {i : Instr} (h : i.WellFormed = true) (s : State) :
    exec i s = .next (instrBody i (s.addCyc (baseCount i))) := by
  obtain ⟨op, hop⟩ := opcode_of_wellFormed h
  rw [exec_eq_instrBody, withCycles_of_opcode _ s hop, cycles_of_opcode hop]

end Sys2Proof.Machine
end

section

namespace Sys2Proof.Proofs

open Sys2Proof.Machine Sys2Proof.Claims

/-- Settles O9: the body adds the mode's and the branch's cycles to the base count, and its moves touch no counter of the
orchestrator. -/
theorem everyInstructionCompletes : Obligations.EveryInstructionCompletes := by
  unfold Obligations.EveryInstructionCompletes
  intro i s hi
  have hexec := exec_of_wellFormed hi s
  refine ⟨_, hexec, ?_, (exec_moves hexec).tick, (exec_moves hexec).wait⟩
  rw [cyc_instrBody hi, modeCycles_addCyc, branchCycles_addCyc, addCyc_cyc]

end Sys2Proof.Proofs
end

section
/-! SUPPORT. A form listed on an instruction's "Operands" line runs its body after the listed count, and the shapes the
statements about instructions are written in: reads, stores, implied forms (40_cpu_step_and_addressing.md R182, R183, R186). -/

namespace Sys2Proof.Machine

open Sys2Proof.Claims

/-! ## Rows -/

/-- The encoder and the opcode table have each row of the "Operands" lines. -/
theorem forms_of_row (k : Kind) :
    ∀ r ∈ rows k, k.forms.lookup r.1 = some r.2.1 ∧ (entry r.2.1).cycles = some r.2.2 := by
  cases k <;> decide +kernel

/-- An instruction whose operand form is of a row of its kind has the row's opcode. -/
theorem opcode_of_row {i : Instr} {r : Row} (hr : r ∈ rows i.kind) (hm : r.1 = i.operand.mode) :
    i.opcode? = some r.2.1 := by
  have hlookup := (forms_of_row i.kind r hr).1
  rw [hm] at hlookup
  cases i with
  | mia op o => cases hr
  | _ => exact hlookup

/-- An instruction of a row encodes to the row's opcode and its operand bytes, and runs its body after the row's count. -/
theorem runsTo_of_row {i : Instr} {r : Row} (hr : r ∈ rows i.kind) (hm : r.1 = i.operand.mode) (s : State) :
    RunsTo i r s (instrBody i (s.addCyc r.2.2)) := by
  have hop := opcode_of_row hr hm
  refine ⟨by rw [encode, hop], ?_⟩
  rw [exec_eq_instrBody, withCycles_of_opcode _ s hop, (forms_of_row i.kind r hr).2, Option.getD_some]

/-! ## Z and N -/

/-- The two flag bits put in one after the other are the two put in by masks. -/
theorem setBit_setBit_eq_withZN (p v : Byte) : setBit (setBit p 1 (v == 0)) 7 (bitOf v 7) = withZN p v := by
  have hmasks : ∀ (p : Byte) (z n : Bool),
      setBit (setBit p 1 z) 7 n = (p &&& 0x7D) ||| (if z then 0x02 else 0x00) ||| (if n then 0x80 else 0x00) := by
    decide +kernel
  have hsign : ∀ v : Byte, v &&& 0x80 = if bitOf v 7 then 0x80 else 0x00 := by decide +kernel
  rw [hmasks, withZN, hsign]
  simp only [beq_iff_eq]

theorem setZN_eq (v : Byte) (s : State) : setZN v s = withCpu s fun c => { c with p := withZN c.p v } :=
  congrArg s.setP (setBit_setBit_eq_withZN s.cpu.p v)

/-! ## The shapes of the statements -/

/-- An instruction whose body reads its operand and then changes CPU registers does so in every form of its rows. -/
theorem reads_of_body {i : Operand → Instr} {k : Kind} {f : Byte → Cpu → Cpu} {s : State} (hk : ∀ o, (i o).kind = k)
    (ho : ∀ o, (i o).operand = o)
    (hbody : ∀ o t, instrBody (i o) t = withCpu (readOperand o t).2 (f (readOperand o t).1)) :
    Reads i k f s := by
  intro o r hr hm
  rw [← hbody]
  exact runsTo_of_row (by rwa [hk]) (by rwa [ho]) s

/-- A mode other than IMP and ACC has an effective address. -/
theorem effAddr_eq_some {o : Operand} (himp : o.mode ≠ .imp) (hacc : o.mode ≠ .acc) (s : State) :
    ∃ ea s', effAddr o s = (some ea, s') := by
  cases o with
  | imp => exact absurd rfl himp
  | acc => exact absurd rfl hacc
  | _ => exact ⟨_, _, rfl⟩

/-- An instruction whose body writes a register to its operand makes one write of it in every form of its rows, none of
which is IMP or ACC. No mode changes the register before the write. -/
theorem stores_of_body {i : Operand → Instr} {k : Kind} {src : Cpu → Byte} {s : State} (q : Reg)
    (hk : ∀ o, (i o).kind = k) (ho : ∀ o, (i o).operand = o) (hrows : ∀ r ∈ rows k, r.1 ≠ .imp ∧ r.1 ≠ .acc)
    (hsrc : ∀ t : State, src t.cpu = reg q t)
    (hbody : ∀ o t, instrBody (i o) t = writeOperand o (fun t => src t.cpu) t) : Stores i k src s := by
  intro o r hr hm
  obtain ⟨himp, hacc⟩ := hrows r hr
  obtain ⟨ea, s', hea⟩ := effAddr_eq_some (hm ▸ himp) (hm ▸ hacc) (s.addCyc r.2.2)
  have hreg : src s'.cpu = src s.cpu := by
    have hmode := reg_effAddr q (s.addCyc r.2.2) o
    rwa [hea, reg_addCyc, ← hsrc, ← hsrc] at hmode
  have hwrite : instrBody (i o) (s.addCyc r.2.2) = memWrite ea (src s.cpu) s' := by
    simp only [hbody, writeOperand, hea, hreg]
  refine ⟨ea, s', hea, ?_⟩
  rw [← hwrite]
  exact runsTo_of_row (by rwa [hk]) (by rwa [ho]) s

/-- A one-byte instruction of two cycles whose body, run after them, changes CPU registers alone. -/
theorem implied_of_body {i : Instr} {op : Byte} {f : Cpu → Cpu} {s : State} (hrow : (Mode.imp, op, 2) ∈ rows i.kind)
    (ho : i.operand = .imp) (hbody : instrBody i (s.addCyc 2) = withCpu s fun c => { f c with cyc := c.cyc + 2 }) :
    Implied i op f s := by
  refine ⟨hrow, ?_⟩
  rw [← hbody]
  exact runsTo_of_row hrow (by rw [ho]; rfl) s

end Sys2Proof.Machine
end

section

namespace Sys2Proof.Proofs

open Sys2Proof.Machine Sys2Proof.Claims

/-- Settles O25: each load's body is its operand's read, then the register, Z and N. -/
theorem loadsFillTheirRegister : Obligations.LoadsFillTheirRegister := by
  unfold Obligations.LoadsFillTheirRegister
  intro s
  refine ⟨?lda, ?ldx, ?ldy⟩
  case lda | ldx | ldy => exact reads_of_body (fun _ => rfl) (fun _ => rfl) (fun _ _ => setZN_eq _ _)

/-- Settles O26: each store has an address in every form of its row, and the mode leaves the register as it was. -/
theorem storesWriteTheirRegister : Obligations.StoresWriteTheirRegister := by
  unfold Obligations.StoresWriteTheirRegister
  intro s
  exact ⟨stores_of_body .a (fun _ => rfl) (fun _ => rfl) (by decide) (fun _ => rfl) (fun _ _ => rfl),
    stores_of_body .x (fun _ => rfl) (fun _ => rfl) (by decide) (fun _ => rfl) (fun _ _ => rfl),
    stores_of_body .y (fun _ => rfl) (fun _ => rfl) (by decide) (fun _ => rfl) (fun _ _ => rfl)⟩

/-- Settles O27: but for TXS, each body is a new value of one register, with Z and N of it. -/
theorem registerInstructionsResult : Obligations.RegisterInstructionsResult := by
  unfold Obligations.RegisterInstructionsResult
  intro s
  refine ⟨?tax, ?tay, ?txa, ?tya, ?tsx, ?txs, ?inx, ?iny, ?dex, ?dey⟩
  case txs => exact implied_of_body (by decide) rfl rfl
  case tax | tay | txa | tya | tsx | inx | iny | dex | dey => exact implied_of_body (by decide) rfl (setZN_eq _ _)

end Sys2Proof.Proofs
end

section
/-! SUPPORT. Shared bodies as register changes: status masks, comparisons, BIT, read-modify-writes (42_arithmetic_logic.md
R223 to R232, 43_shift_rotate.md R250). -/

namespace Sys2Proof.Machine

open Sys2Proof.Claims

/-! ## Status masks -/

theorem setBit_eq_withC (p : Byte) (c : Bool) : setBit p 0 c = withC p c := by revert p c; decide +kernel

theorem setC_eq (c : Bool) (s : State) : s.setC c = withCpu s fun u => { u with p := withC u.p c } :=
  congrArg s.setP (setBit_eq_withC s.cpu.p c)

theorem compareBytes_eq (r m : Byte) (s : State) :
    compareBytes r m s = withCpu s fun c => { c with p := withZN (withC c.p (decide (m.toNat ≤ r.toNat))) (r - m) } := by
  rw [compareBytes, setC_eq, setZN_eq]; rfl

/-- The three flag bits BIT puts in one after the other are those put in by masks (R226). -/
theorem bitTest_eq (m : Byte) (s : State) :
    bitTest m s = withCpu s fun c =>
      { c with p := (c.p &&& 0x3D) ||| (m &&& 0xC0) ||| (if c.a &&& m = 0 then 0x02 else 0x00) } := by
  have hmasks : ∀ (p : Byte) (z n v : Bool), setBit (setBit (setBit p 1 z) 7 n) 6 v =
      (p &&& 0x3D) ||| ((if n then 0x80 else 0x00) ||| (if v then 0x40 else 0x00)) ||| (if z then 0x02 else 0x00) := by
    decide +kernel
  have hbits : ∀ m : Byte, m &&& 0xC0 = (if bitOf m 7 then 0x80 else 0x00) ||| (if bitOf m 6 then 0x40 else 0x00) := by
    decide +kernel
  rw [hbits]
  refine congrArg s.setP ((hmasks s.cpu.p (s.cpu.a &&& m == 0) (bitOf m 7) (bitOf m 6)).trans ?_)
  simp only [beq_iff_eq]

/-! ## Read-modify-writes -/

/-- An instruction whose body is a read-modify-write, with `flags` put in the status before Z and N, is one in every form of
its rows, none of which is IMP. The write depends on no CPU register, so it may come before the flags. -/
theorem modifies_of_body {i : Operand → Instr} {k : Kind} {res : Byte → Byte} {flags : Byte → Byte → Byte}
    {g : Byte → State → State} {s : State} (hk : ∀ o, (i o).kind = k) (ho : ∀ o, (i o).operand = o)
    (hrows : ∀ r ∈ rows k, r.1 ≠ .imp) (hg : ∀ m t, g m t = withCpu t fun c => { c with p := flags c.p m })
    (hbody : ∀ o n, instrBody (i o) (s.addCyc n) = modifyOperand o res g (s.addCyc n)) : Modifies i k res flags s := by
  intro o r hr hm
  have hrun : RunsTo (i o) r s (modifyOperand o res g (s.addCyc r.2.2)) := by
    rw [← hbody]
    exact runsTo_of_row (by rwa [hk]) (by rwa [ho]) s
  constructor
  · rintro rfl
    have hacc : modifyOperand .acc res g (s.addCyc r.2.2) =
        setZN (res s.cpu.a) ((g s.cpu.a (s.addCyc r.2.2)).setA (res s.cpu.a)) := rfl
    rw [hacc, hg, setZN_eq] at hrun
    exact hrun
  · intro hacc
    have hne : o.mode ≠ .acc := by
      cases o with
      | acc => exact absurd rfl hacc
      | _ => simp [Operand.mode]
    obtain ⟨ea, s', hea⟩ := effAddr_eq_some (hm ▸ hrows r hr) hne (s.addCyc r.2.2)
    rw [modifyOperand_memory hea, hg, withCpu, memWrite_withCpu, setZN_eq] at hrun
    refine ⟨ea, s', hea, ?_⟩
    simpa only [withCpu, memWrite_cpu] using hrun

end Sys2Proof.Machine
end

section

namespace Sys2Proof.Proofs

open Sys2Proof.Machine Sys2Proof.Claims

/-- Settles O30: the logic instructions put their result in `A` and then its Z and N, BIT its three flags alone, the
comparisons C and then the Z and N of the difference. -/
theorem logicAndCompareResult : Obligations.LogicAndCompareResult := by
  unfold Obligations.LogicAndCompareResult
  intro s
  refine ⟨?and, ?ora, ?eor, ?bit, ?cmp, ?cpx, ?cpy⟩
  case and | ora | eor => exact reads_of_body (fun _ => rfl) (fun _ => rfl) (fun _ _ => setZN_eq _ _)
  case bit => exact reads_of_body (fun _ => rfl) (fun _ => rfl) (fun _ _ => bitTest_eq _ _)
  case cmp | cpx | cpy => exact reads_of_body (fun _ => rfl) (fun _ => rfl) (fun _ _ => compareBytes_eq _ _ _)

/-- Settles O31: the read-modify-write that puts nothing in the status before Z and N. -/
theorem incrementMemoryResult : Obligations.IncrementMemoryResult := by
  unfold Obligations.IncrementMemoryResult
  intro s
  exact ⟨modifies_of_body (fun _ => rfl) (fun _ => rfl) (by decide) (fun _ _ => rfl) (fun _ _ => rfl),
    modifies_of_body (fun _ => rfl) (fun _ => rfl) (by decide) (fun _ _ => rfl) (fun _ _ => rfl)⟩

end Sys2Proof.Proofs
end

section
/-! SUPPORT. The adder in the terms of arithmetic: its sum, carry and signed overflow (42_arithmetic_logic.md R220), and the
operand complemented, with which it subtracts (R222). -/

namespace Sys2Proof.Machine

open Sys2Proof.Claims

/-! ## Bytes as numbers -/

theorem bitOf_seven (b : Byte) : bitOf b 7 = decide (128 ≤ b.toNat) := by revert b; decide +kernel

theorem complement_toNat (m : Byte) : (m ^^^ 0xFF).toNat = 255 - m.toNat := by revert m; decide +kernel

theorem complement_toInt (m : Byte) : (m ^^^ 0xFF).toInt = -1 - m.toInt := by revert m; decide +kernel

theorem flagNat_flagC (s : State) : flagNat s.flagC = carryIn s := by
  rw [State.flagC, carryIn]
  generalize s.cpu.p = p
  revert p
  decide +kernel

/-! ## The adder -/

/-- R220's formula, read off the sign bits: the result differs in sign from both summands. -/
theorem adcOverflow_eq_signs (a m : Byte) (c : Bool) :
    adcOverflow a m c =
      ((bitOf a 7 != bitOf (adcResult a m c) 7) && (bitOf m 7 != bitOf (adcResult a m c) 7)) := by
  have hsign : ∀ b : Byte, (b &&& 0x80 != 0) = bitOf b 7 := by decide +kernel
  rw [adcOverflow, hsign]
  simp [bitOf]

/-- The result differs in sign from both summands exactly when the signed sum leaves -128..127. -/
theorem adcOverflow_eq_range (a m : Byte) (c : Bool) :
    adcOverflow a m c =
      decide (a.toInt + m.toInt + flagNat c < -128 ∨ 127 < a.toInt + m.toInt + flagNat c) := by
  have hr : (adcResult a m c).toNat = (a.toNat + m.toNat + flagNat c) % 256 := BitVec.toNat_ofNat ..
  have hc : flagNat c ≤ 1 := by cases c <;> decide
  have ha := a.isLt
  have hm := m.isLt
  rw [adcOverflow_eq_signs, BitVec.toInt_eq_toNat_cond a, BitVec.toInt_eq_toNat_cond m, bitOf_seven, bitOf_seven,
    bitOf_seven, hr, Bool.eq_iff_iff]
  simp only [Bool.and_eq_true, bne_iff_ne, ne_eq, decide_eq_decide, decide_eq_true_iff]
  split <;> split <;> omega

/-- The adder writes `A` and the status alone. -/
theorem addWithCarry_eq (m : Byte) (s : State) :
    addWithCarry m s = withCpu s fun c =>
      { c with a := BitVec.ofNat 8 (s.cpu.a.toNat + m.toNat + carryIn s), p := (addWithCarry m s).cpu.p } := by
  rw [← flagNat_flagC]; rfl

/-- The adder keeps D, I, Break and Reserved. -/
theorem addWithCarry_keeps (m : Byte) (s : State) : (addWithCarry m s).cpu.p &&& 0x3C = s.cpu.p &&& 0x3C :=
  ((Moves.refl (i := .adc .acc)).addWithCarry m).cpuFrame.flags

/-- The flags the adder writes, from the unsigned and the signed sum. -/
theorem addWithCarry_flags (m : Byte) (s : State) :
    let sum : Nat := s.cpu.a.toNat + m.toNat + carryIn s
    let signed : Int := s.cpu.a.toInt + m.toInt + carryIn s
    (addWithCarry m s).flagC = decide (255 < sum) ∧
      (addWithCarry m s).flagV = decide (signed < -128 ∨ 127 < signed) ∧
      (addWithCarry m s).flagZ = decide (sum % 256 = 0) ∧
      (addWithCarry m s).flagN = decide (128 ≤ sum % 256) := by
  intro sum signed
  have hsum : adcSum s.cpu.a m s.flagC = sum := by rw [adcSum, flagNat_flagC]
  have hresult : (adcResult s.cpu.a m s.flagC).toNat = sum % 256 := by rw [adcResult, hsum, BitVec.toNat_ofNat]
  refine ⟨?carry, ?overflow, ?zero, ?negative⟩
  case carry => rw [addWithCarry_flagC, adcCarry, hsum]
  case overflow => rw [addWithCarry_flagV, adcOverflow_eq_range, flagNat_flagC]
  case zero =>
    rw [addWithCarry_flagZ, Bool.eq_iff_iff, beq_iff_eq, decide_eq_true_iff, ← hresult, ← BitVec.toNat_inj]; rfl
  case negative => rw [addWithCarry_flagN, bitOf_seven, hresult]

/-! ## The state the operand was read in -/

/-- Reading an operand writes no flag. -/
theorem readOperand_p (o : Operand) (s : State) : (readOperand o s).2.cpu.p = s.cpu.p := by
  have hframe := ((Moves.refl (i := .nop) (s := s)).readOperand o).cpuFrame.flags
  have hall : ~~~flagMask .nop = BitVec.allOnes 8 := rfl
  rwa [hall, BitVec.and_allOnes, BitVec.and_allOnes] at hframe

theorem readOperand_a (o : Operand) (s : State) : (readOperand o s).2.cpu.a = s.cpu.a := reg_readOperand .a s o

theorem carryIn_readOperand (o : Operand) (s : State) (n : Nat) : carryIn (readOperand o (s.addCyc n)).2 = carryIn s := by
  rw [carryIn, readOperand_p]; rfl

end Sys2Proof.Machine
end

section

namespace Sys2Proof.Proofs

open Sys2Proof.Machine Sys2Proof.Claims

/-- Settles O28: the adder on the operand as read, with the `A` and the carry of before the read. -/
theorem addWithCarryResult : Obligations.AddWithCarryResult := by
  unfold Obligations.AddWithCarryResult
  intro s o r hr hm m sum signed
  have ha : m.2.cpu.a = s.cpu.a := readOperand_a o _
  have hc : carryIn m.2 = carryIn s := carryIn_readOperand o s _
  have hp : m.2.cpu.p = s.cpu.p := readOperand_p o _
  have hadd := addWithCarry_eq m.1 m.2
  have hflags := addWithCarry_flags m.1 m.2
  rw [ha, hc] at hadd hflags
  refine ⟨(addWithCarry m.1 m.2).cpu.p, ?_, hp ▸ addWithCarry_keeps m.1 m.2, hflags⟩
  rw [← hadd]
  exact runsTo_of_row (i := .adc o) hr hm s

/-- Settles O29: the adder on the complement of the operand as read. Its sum is the difference plus 256, its signed sum the
signed difference. -/
theorem subtractWithBorrowResult : Obligations.SubtractWithBorrowResult := by
  unfold Obligations.SubtractWithBorrowResult
  intro s o r hr hm m diff signed
  have ha : m.2.cpu.a = s.cpu.a := readOperand_a o _
  have hc : carryIn m.2 = carryIn s := carryIn_readOperand o s _
  have hp : m.2.cpu.p = s.cpu.p := readOperand_p o _
  have hadd := addWithCarry_eq (m.1 ^^^ 0xFF) m.2
  obtain ⟨hC, hV, hZ, hN⟩ := addWithCarry_flags (m.1 ^^^ 0xFF) m.2
  have hsum : ((s.cpu.a.toNat + (m.1 ^^^ 0xFF).toNat + carryIn s : Nat) : Int) = diff + 256 := by
    have := m.1.isLt
    rw [complement_toNat]; omega
  have hsigned : s.cpu.a.toInt + (m.1 ^^^ 0xFF).toInt + carryIn s = signed := by
    rw [complement_toInt]; omega
  rw [ha, hc] at hadd hC hV hZ hN
  rw [hsigned] at hV
  generalize s.cpu.a.toNat + (m.1 ^^^ 0xFF).toNat + carryIn s = sum at hsum hadd hC hZ hN
  have hresult : BitVec.ofNat 8 sum = BitVec.ofInt 8 diff := by
    rw [← BitVec.ofInt_natCast, hsum, ← BitVec.toInt_inj, BitVec.toInt_ofInt, BitVec.toInt_ofInt]
    exact Int.add_bmod_right ..
  refine ⟨(addWithCarry (m.1 ^^^ 0xFF) m.2).cpu.p, ?run, hp ▸ addWithCarry_keeps _ m.2, ?carry, hV, ?zero, ?negative⟩
  case run =>
    rw [← hresult, ← hadd]
    exact runsTo_of_row (i := .sbc o) hr hm s
  case carry => exact hC.trans (decide_eq_decide.2 (by omega))
  case zero => exact hZ.trans (decide_eq_decide.2 (by omega))
  case negative => exact hN.trans (decide_eq_decide.2 (by omega))

end Sys2Proof.Proofs
end

section
/-! SUPPORT. The shifts in the terms of arithmetic: one bit left doubles, one bit right halves, and the entering bit is
added (43_shift_rotate.md R251 to R254). -/

namespace Sys2Proof.Machine

open Sys2Proof.Claims

theorem bitOf_zero (b : Byte) : bitOf b 0 = decide (b.toNat % 2 = 1) := by revert b; decide +kernel

theorem shiftLeftIn_eq (c : Bool) : shiftLeftIn c = fun m => BitVec.ofNat 8 (2 * m.toNat + flagNat c) := by
  funext m; revert c m; decide +kernel

theorem shiftRightIn_eq (c : Bool) : shiftRightIn c = fun m => BitVec.ofNat 8 (m.toNat / 2 + 128 * flagNat c) := by
  funext m; revert c m; decide +kernel

/-- A shift to the left leaves bit 7 in the carry. -/
theorem setC_bit_seven (m : Byte) (s : State) :
    s.setC (bitOf m 7) = withCpu s fun c => { c with p := withC c.p (decide (128 ≤ m.toNat)) } := by
  rw [setC_eq, bitOf_seven]

/-- A shift to the right leaves bit 0 in the carry. -/
theorem setC_bit_zero (m : Byte) (s : State) :
    s.setC (bitOf m 0) = withCpu s fun c => { c with p := withC c.p (decide (m.toNat % 2 = 1)) } := by
  rw [setC_eq, bitOf_zero]

theorem shiftLeftIn_false : shiftLeftIn false = fun m => BitVec.ofNat 8 (2 * m.toNat) := shiftLeftIn_eq false

theorem shiftRightIn_false : shiftRightIn false = fun m => BitVec.ofNat 8 (m.toNat / 2) := shiftRightIn_eq false

theorem shiftLeftIn_flagC (s : State) : shiftLeftIn s.flagC = fun m => BitVec.ofNat 8 (2 * m.toNat + carryIn s) := by
  rw [shiftLeftIn_eq, flagNat_flagC]

theorem shiftRightIn_flagC (s : State) :
    shiftRightIn s.flagC = fun m => BitVec.ofNat 8 (m.toNat / 2 + 128 * carryIn s) := by
  rw [shiftRightIn_eq, flagNat_flagC]

end Sys2Proof.Machine
end

section

namespace Sys2Proof.Proofs

open Sys2Proof.Machine Sys2Proof.Claims

/-- Settles O32: each of the four is a read-modify-write that puts the bit shifted out in C. A 0 enters the shifts; the
carry that enters the rotations is that of before the instruction, which the cycle count leaves as it was. -/
theorem shiftResult : Obligations.ShiftResult := by
  unfold Obligations.ShiftResult
  intro s
  rw [← shiftLeftIn_false, ← shiftRightIn_false, ← shiftLeftIn_flagC, ← shiftRightIn_flagC]
  refine ⟨?asl, ?lsr, ?rol, ?ror⟩
  case asl | rol =>
    exact modifies_of_body (fun _ => rfl) (fun _ => rfl) (by decide) setC_bit_seven (fun _ _ => rfl)
  case lsr | ror =>
    exact modifies_of_body (fun _ => rfl) (fun _ => rfl) (by decide) setC_bit_zero (fun _ _ => rfl)

end Sys2Proof.Proofs
end

section
/-! SUPPORT. Control transfers as changes of the CPU registers and of bytes of page 1: the jump through a pointer, the call
and both returns, the interrupt entry (44_control_flow.md R260 to R262, 45_stack_flags_system.md R294, 60_exceptions.md
R401). -/

namespace Sys2Proof.Machine

open Sys2Proof.Claims

/-! ## The bytes of a word by its number -/

theorem hiByte_eq_ofNat (a : Word) : hiByte a = BitVec.ofNat 8 (a.toNat / 256) := by
  rw [← hiByte_toNat, BitVec.ofNat_toNat, BitVec.setWidth_eq]

theorem loByte_toNat (a : Word) : (loByte a).toNat = a.toNat % 256 := BitVec.extractLsb'_toNat 0 8 a

theorem loByte_eq_ofNat (a : Word) : loByte a = BitVec.ofNat 8 a.toNat := by
  rw [BitVec.toNat_eq, loByte_toNat, BitVec.toNat_ofNat]

theorem wordOf_toNat (hi lo : Byte) : (wordOf hi lo).toNat = hi.toNat * 256 + lo.toNat := by
  rw [wordOf, BitVec.toNat_append, ← Nat.shiftLeft_add_eq_or_of_lt lo.isLt, Nat.shiftLeft_eq]

/-- The address after a pointer's, within the pointer's page (40_cpu_step_and_addressing.md R175). -/
theorem wordOf_next_in_page (a : Word) :
    wordOf (hiByte a) (loByte a + 1) = BitVec.ofNat 16 (a.toNat / 256 * 256 + (a.toNat + 1) % 256) := by
  have ha := a.isLt
  rw [BitVec.toNat_eq, wordOf_toNat, hiByte_toNat, BitVec.toNat_add, loByte_toNat, BitVec.toNat_ofNat,
    show (1 : Byte).toNat = 1 from rfl]
  omega

/-! ## Stack slots -/

theorem stackSlot_ne {a b : Byte} (h : a ≠ b) : stackSlot a ≠ stackSlot b :=
  fun e => h (BitVec.eq_of_toNat_eq (Nat.add_left_cancel e))

/-! ## Jumps, call and returns -/

theorem memRead_addCyc (a : Word) (s : State) (n : Nat) :
    memRead a (s.addCyc n) = ((memRead a s).1, (memRead a s).2.addCyc n) := by
  rw [State.addCyc, memRead_withCpu, State.addCyc, memRead_cpu]

/-- A jump through a pointer is its two bus reads and a new `PC`. -/
theorem jumpTo_ind_eq (a : Word) (s : State) :
    jumpTo (.ind a) s =
      let l := memRead a s
      let h := memRead (BitVec.ofNat 16 (a.toNat / 256 * 256 + (a.toNat + 1) % 256)) l.2
      h.2.setPc (wordOf h.1 l.1) := by
  simp only [jumpTo, effAddr, indirectPointer, wordOf_next_in_page]

theorem callSubroutine_abs_eq (a : Word) (s : State) :
    callSubroutine (.abs a) s =
      { withCpu s (fun c => { c with pc := a, sp := c.sp - 2 }) with
        ram := storeByte (storeByte s.ram (stackSlot s.cpu.sp) (hiByte (s.cpu.pc - 1)))
          (stackSlot (s.cpu.sp - 1)) (loByte (s.cpu.pc - 1)) } := by
  have hsp : s.cpu.sp - 1 - 1 = s.cpu.sp - 2 := by bv_omega
  simp only [callSubroutine, effAddr, push_eq, withCpu, State.setPc, hsp]

theorem returnFromSubroutine_eq (s : State) :
    returnFromSubroutine s = withCpu s fun c =>
      { c with
        pc := wordOf (byteAt s.ram (stackSlot (c.sp + 2))) (byteAt s.ram (stackSlot (c.sp + 1))) + 1
        sp := c.sp + 2 } := by
  have hsp : s.cpu.sp + 1 + 1 = s.cpu.sp + 2 := by bv_omega
  simp only [returnFromSubroutine, pop_eq, withCpu, State.setPc, hsp]

theorem returnFromInterrupt_eq (s : State) :
    returnFromInterrupt s = withCpu s fun c =>
      { c with
        p := pulledP (byteAt s.ram (stackSlot (c.sp + 1)))
        pc := wordOf (byteAt s.ram (stackSlot (c.sp + 3))) (byteAt s.ram (stackSlot (c.sp + 2)))
        sp := c.sp + 3 } := by
  have hsp2 : s.cpu.sp + 1 + 1 = s.cpu.sp + 2 := by bv_omega
  have hsp3 : s.cpu.sp + 2 + 1 = s.cpu.sp + 3 := by bv_omega
  simp only [returnFromInterrupt, pop_eq, withCpu, State.setP, State.setPc, hsp2, hsp3]

/-! ## The interrupt entry -/

/-- A vector above the ports is read without a change of state, and of the state the word depends on the cartridge alone. -/
theorem readVector_high {vec : Word} (h : 0x3FFF < vec.toNat) (h' : 0x3FFF < (vec + 1).toNat) {s t : State}
    (hc : t.cart = s.cart) : readVector vec t = (wordOf (peek (vec + 1) s) (peek vec s), t) := by
  simp only [readVector, memRead_above h, memRead_above h', memRead_high_congr h hc, memRead_high_congr h' hc, peek]

theorem setBit_two_true (p : Byte) : setBit p 2 true = p ||| 0x04 := by revert p; decide +kernel

/-- The entry through a vector above the ports is three stores in page 1 and changes of the CPU registers. -/
theorem interrupt_eq_entered {vec : Word} (h : 0x3FFF < vec.toNat) (h' : 0x3FFF < (vec + 1).toNat) (s : State) :
    interrupt vec s = entered vec 0 s := by
  have hsp2 : s.cpu.sp - 1 - 1 = s.cpu.sp - 2 := by bv_omega
  have hsp3 : s.cpu.sp - 2 - 1 = s.cpu.sp - 3 := by bv_omega
  rw [interrupt, readVector_high h h' (s := s) (by simp only [push_eq, withCpu, State.setP])]
  simp only [push_eq, withCpu, State.setP, State.setPc, hsp2, hsp3, setBit_two_true, hiByte_eq_ofNat, loByte_eq_ofNat]
  rfl

theorem cpuNmi_eq_entered (s : State) : cpuNmi s = entered nmiVector Config.intCycles s := by
  rw [cpuNmi, interrupt_eq_entered (by decide) (by decide)]; rfl

/-- A status with Break and Reserved 0 survives being pushed and pulled. -/
theorem pulledP_pushedP {p : Byte} (h : p &&& 0x30 = 0) : pulledP (pushedP p) = p := by
  revert p; decide +kernel

/-! ## The round trips -/

/-- RTS takes back the two bytes that JSR pushed (44_control_flow.md R262). -/
theorem returnFromSubroutine_callSubroutine (a : Word) (n : Nat) (s : State) :
    (returnFromSubroutine ((callSubroutine (.abs a) s).addCyc n)).cpu = { s.cpu with cyc := s.cpu.cyc + n } := by
  have hhi : s.cpu.sp - 2 + 2 = s.cpu.sp := by bv_omega
  have hlo : s.cpu.sp - 2 + 1 = s.cpu.sp - 1 := by bv_omega
  have hslots : stackSlot s.cpu.sp ≠ stackSlot (s.cpu.sp - 1) := stackSlot_ne (by bv_omega)
  have hpc : s.cpu.pc - 1 + 1 = s.cpu.pc := sub_add_cancel _ _
  simp only [returnFromSubroutine_eq, callSubroutine_abs_eq, withCpu, State.addCyc, hhi, hlo, byteAt_storeByte_same,
    byteAt_storeByte_other _ _ hslots, wordOf_parts, hpc]

/-- RTI takes back the three bytes that an interrupt entry pushed (60_exceptions.md R414). -/
theorem returnFromInterrupt_entered {s : State} (h : s.cpu.p &&& 0x30 = 0) (vec : Word) (m n : Nat) :
    (returnFromInterrupt ((entered vec m s).addCyc n)).cpu = { s.cpu with cyc := s.cpu.cyc + m + n } := by
  have hhi : s.cpu.sp - 3 + 3 = s.cpu.sp := by bv_omega
  have hlo : s.cpu.sp - 3 + 2 = s.cpu.sp - 1 := by bv_omega
  have hp : s.cpu.sp - 3 + 1 = s.cpu.sp - 2 := by bv_omega
  have hhi_lo : stackSlot s.cpu.sp ≠ stackSlot (s.cpu.sp - 1) := stackSlot_ne (by bv_omega)
  have hhi_p : stackSlot s.cpu.sp ≠ stackSlot (s.cpu.sp - 2) := stackSlot_ne (by bv_omega)
  have hlo_p : stackSlot (s.cpu.sp - 1) ≠ stackSlot (s.cpu.sp - 2) := stackSlot_ne (by bv_omega)
  have hstatus : pulledP (s.cpu.p ||| 0x30) = s.cpu.p := pulledP_pushedP h
  simp only [returnFromInterrupt_eq, entered, withCpu, State.addCyc, hhi, hlo, hp, byteAt_storeByte_same,
    byteAt_storeByte_other _ _ hhi_lo, byteAt_storeByte_other _ _ hhi_p, byteAt_storeByte_other _ _ hlo_p,
    ← hiByte_eq_ofNat, ← loByte_eq_ofNat, wordOf_parts, hstatus]

/-! ## Branches -/

theorem branchTaken_addCyc (i : Instr) (s : State) (n : Nat) : branchTaken i (s.addCyc n) = branchTaken i s := by
  cases i <;> rfl

theorem branchTarget_addCyc (s : State) (d : Byte) (n : Nat) : branchTarget (s.addCyc n) d = branchTarget s d := rfl

/-- The body of a branch, after the base count of 2, is what 44_control_flow.md R263 leaves. -/
theorem instrBody_branch_eq_branched {i : Instr} {d : Byte} (hi : i.WellFormed = true) (ho : i.operand = .rel d)
    (s : State) : instrBody i (s.addCyc 2) = branched i d s := by
  rw [instrBody_branch hi ho, branchTaken_addCyc, branchTarget_addCyc, addCyc_pc, branched, withCpu]
  split
  · split <;> rfl
  · rfl

end Sys2Proof.Machine
end

section

namespace Sys2Proof.Proofs

open Sys2Proof.Machine Sys2Proof.Claims

/-- Settles O33: each form is of a row, and its body is a new `PC`, through a pointer after the two reads of it, which do not
depend on the cycle count. -/
theorem jumpResult : Obligations.JumpResult := by
  unfold Obligations.JumpResult
  intro s a
  constructor
  · exact runsTo_of_row (.head _) rfl s
  · have hrow := runsTo_of_row (i := .jmp (.ind a)) (r := (.ind, 0x6C, 5)) (.tail _ (.head _)) rfl s
    simp only [instrBody, jumpTo_ind_eq, memRead_addCyc] at hrow
    exact hrow

/-- Settles O34: the two bytes pushed are those of the return address, and the cycle count moves neither stack nor `PC`. -/
theorem subroutineResult : Obligations.SubroutineResult := by
  unfold Obligations.SubroutineResult
  intro s a
  constructor
  · have hrow := runsTo_of_row (i := .jsr (.abs a)) (r := (.abs, 0x20, 6)) (.head _) rfl s
    rw [instrBody, callSubroutine_abs_eq, hiByte_eq_ofNat, loByte_eq_ofNat] at hrow
    exact hrow
  · have hrow := runsTo_of_row (i := .rts) (r := (.imp, 0x60, 6)) (.head _) rfl s
    rw [instrBody, returnFromSubroutine_eq] at hrow
    exact hrow

/-- Settles O35: each of the eight is of its row, and its body adds to the base count of 2 what the flag decides. -/
theorem branchResult : Obligations.BranchResult := by
  unfold Obligations.BranchResult
  intro s d i op hmem
  have hform : i.operand = .rel d ∧ i.WellFormed = true ∧ (Mode.rel, op, 2) ∈ rows i.kind := by
    fin_cases hmem <;> exact ⟨rfl, rfl, .head _⟩
  obtain ⟨ho, hwf, hrow⟩ := hform
  rw [← instrBody_branch_eq_branched hwf ho]
  exact runsTo_of_row hrow (by rw [ho]; rfl) s

/-- Settles O42: both returns take back from page 1 what the call and the entry pushed. -/
theorem returnsUndoCallAndInterrupt : Obligations.ReturnsUndoCallAndInterrupt := by
  unfold Obligations.ReturnsUndoCallAndInterrupt
  intro s a
  constructor
  · obtain ⟨-, hjsr⟩ := runsTo_of_row (i := .jsr (.abs a)) (r := (.abs, 0x20, 6)) (.head _) rfl s
    obtain ⟨-, hrts⟩ :=
      runsTo_of_row (i := .rts) (r := (.imp, 0x60, 6)) (.head _) rfl (callSubroutine (.abs a) (s.addCyc 6))
    exact ⟨_, _, hjsr, hrts, rfl, returnFromSubroutine_callSubroutine a 6 (s.addCyc 6)⟩
  · intro hp
    obtain ⟨-, hrti⟩ := runsTo_of_row (i := .rti) (r := (.imp, 0x40, 6)) (.head _) rfl (cpuNmi s)
    refine ⟨_, hrti, ?_⟩
    rw [instrBody, cpuNmi_eq_entered]
    exact returnFromInterrupt_entered hp nmiVector Config.intCycles 6

end Sys2Proof.Proofs
end

section
/-! SUPPORT. An instruction of a row by what its body leaves; the pulls of `A` and of the status, and BRK's entry, as changes
of the CPU registers and of bytes of page 1 (45_stack_flags_system.md R282, R283, R295). -/

namespace Sys2Proof.Machine

open Sys2Proof.Claims

/-- An instruction of a row leaves what its body, run after the row's count, is shown to leave. -/
theorem runsTo_of_body {i : Instr} {r : Row} {s t : State} (hr : r ∈ rows i.kind) (hm : r.1 = i.operand.mode)
    (hbody : instrBody i (s.addCyc r.2.2) = t) : RunsTo i r s t :=
  hbody ▸ runsTo_of_row hr hm s

theorem instrBody_pla_eq (s : State) :
    instrBody .pla s = withCpu s fun c =>
      { c with
        a := byteAt s.ram (stackSlot (c.sp + 1))
        p := withZN c.p (byteAt s.ram (stackSlot (c.sp + 1)))
        sp := c.sp + 1 } := by
  simp only [instrBody, pop_eq, setZN_eq, withCpu, State.setA]

theorem instrBody_plp_eq (s : State) :
    instrBody .plp s = withCpu s fun c =>
      { c with p := pulledP (byteAt s.ram (stackSlot (c.sp + 1))), sp := c.sp + 1 } := by
  simp only [instrBody, pop_eq, withCpu, State.setP]

/-- The entry's own stores and vector reads do not depend on the cycle count, so its cycles may be added before it. -/
theorem entered_addCyc (vec : Word) (n : Nat) (s : State) : entered vec 0 (s.addCyc n) = entered vec n s := by
  rw [entered, peek_addCyc, peek_addCyc]; rfl

/-- The entry of BRK stacks the address past the padding byte (45_stack_flags_system.md R295). -/
theorem instrBody_brk_eq (n : Nat) (s : State) :
    instrBody .brk (s.addCyc n) = entered irqVector n (withCpu s fun c => { c with pc := c.pc + 1 }) := by
  have hpadding : (s.addCyc n).setPc (s.cpu.pc + 1) = (withCpu s fun c => { c with pc := c.pc + 1 }).addCyc n := rfl
  rw [instrBody, addCyc_pc, hpadding, interrupt_eq_entered (by decide) (by decide), entered_addCyc]

end Sys2Proof.Machine
end

section

namespace Sys2Proof.Proofs

open Sys2Proof.Machine Sys2Proof.Claims

/-- Settles O36: each body is its pushes or pulls of page 1, which do not depend on the cycle count. -/
theorem stackInstructionsResult : Obligations.StackInstructionsResult := by
  unfold Obligations.StackInstructionsResult
  intro s
  refine ⟨?pha, ?php, ?pla, ?plp, ?rti⟩
  case pha | php => exact runsTo_of_body (.head _) rfl (push_eq _ _)
  case pla => exact runsTo_of_body (.head _) rfl (instrBody_pla_eq _)
  case plp => exact runsTo_of_body (.head _) rfl (instrBody_plp_eq _)
  case rti => exact runsTo_of_body (.head _) rfl (returnFromInterrupt_eq _)

/-- Settles O39: BRK's body is the entry common to all interrupts, which does not read `P.I`, after `PC` has passed the
padding byte. -/
theorem breakResult : Obligations.BreakResult := by
  unfold Obligations.BreakResult
  intro s
  exact runsTo_of_body (.head _) rfl (instrBody_brk_eq 7 s)

/-- Settles O38: each flag is put in the status by its one bit's mask, which is `setBit` evaluated at that bit. -/
theorem flagInstructionsResult : Obligations.FlagInstructionsResult := by
  unfold Obligations.FlagInstructionsResult
  intro s
  refine ⟨?clc, ?sec, ?cli, ?sei, ?cld, ?sed, ?clv, ?nop⟩
  case clc | sec | cli | sei | cld | sed | clv => exact implied_of_body (by decide) rfl rfl
  case nop => exact implied_of_body (by decide) rfl rfl

end Sys2Proof.Proofs
end

section
/-! SUPPORT. What the writes of CTRL, SCROLL and ADDR put into the fields of `t`, and the accesses of DATA by the number of
the address in `v` (46_ppu_register_ports.md R311, R323 to R325, R328, R330). -/

namespace Sys2Proof.Machine

open Sys2Proof.Claims

/-! ## Fields put into a scroll register

Each of these writes is an `|||` of the fields of `t` that stay with the fields taken from the byte. -/

theorem scrollFields_or {v w : BitVec 15} {cx cy nx ny fy cx' cy' nx' ny' fy' : Nat}
    (hv : scrollFields v = (cx, cy, nx, ny, fy)) (hw : scrollFields w = (cx', cy', nx', ny', fy')) :
    scrollFields (v ||| w) = (cx ||| cx', cy ||| cy', nx ||| nx', ny ||| ny', fy ||| fy') := by
  simp only [scrollFields, coarseXOf_eq_slice, coarseYOf_eq_slice, nametableXOf_eq_slice, nametableYOf_eq_slice,
    fineYOf_eq_slice, BitVec.extractLsb'_or, BitVec.toNat_or, Prod.mk.injEq] at hv hw ⊢
  obtain ⟨rfl, rfl, rfl, rfl, rfl⟩ := hv
  obtain ⟨rfl, rfl, rfl, rfl, rfl⟩ := hw
  exact ⟨rfl, rfl, rfl, rfl, rfl⟩

theorem scrollFields_clearNametable (v : BitVec 15) :
    scrollFields (v &&& 0x73FF) = (coarseXOf v, coarseYOf v, 0, 0, fineYOf v) := by
  simp [scrollFields, coarseXOf_eq_slice, coarseYOf_eq_slice, nametableXOf_eq_slice, nametableYOf_eq_slice,
    fineYOf_eq_slice, BitVec.extractLsb'_and, and_ones5, and_ones3]

theorem scrollFields_clearCoarseX (v : BitVec 15) :
    scrollFields (v &&& 0x7FE0) = (0, coarseYOf v, nametableXOf v, nametableYOf v, fineYOf v) := by
  simp [scrollFields, coarseXOf_eq_slice, coarseYOf_eq_slice, nametableXOf_eq_slice, nametableYOf_eq_slice,
    fineYOf_eq_slice, BitVec.extractLsb'_and, and_ones5, and_ones3, and_ones1]

theorem scrollFields_clearVertical (v : BitVec 15) :
    scrollFields (v &&& 0x0C1F) = (coarseXOf v, 0, nametableXOf v, nametableYOf v, 0) := by
  simp [scrollFields, coarseXOf_eq_slice, coarseYOf_eq_slice, nametableXOf_eq_slice, nametableYOf_eq_slice,
    fineYOf_eq_slice, BitVec.extractLsb'_and, and_ones5, and_ones1]

/-! ## Bits of the byte written -/

/-- A mask of `k` ones keeps the remainder modulo `2 ^ k`. -/
theorem and_lowMask_toNat {n k : Nat} (b m : BitVec n) (h : m.toNat = 2 ^ k - 1) : (b &&& m).toNat = b.toNat % 2 ^ k := by
  rw [BitVec.toNat_and, h, Nat.and_two_pow_sub_one_eq_mod]

theorem byte_shiftRight_three_toNat (d : Byte) : (d >>> 3).toNat = d.toNat / 8 := by
  rw [BitVec.toNat_ushiftRight, Nat.shiftRight_eq_div_pow]

theorem byte_setWidth15_toNat (b : Byte) : (b.setWidth 15).toNat = b.toNat := by
  rw [BitVec.toNat_setWidth]; omega

/-- A byte moved to bit `k` of a scroll register, when it fits there. -/
theorem byte_placed_toNat {b : Byte} {n k : Nat} (hb : b.toNat = n) (h : n * 2 ^ k < 2 ^ 15) :
    (b.setWidth 15 <<< k).toNat = n * 2 ^ k := by
  rw [BitVec.toNat_shiftLeft, byte_setWidth15_toNat, hb, Nat.shiftLeft_eq, Nat.mod_eq_of_lt h]

/-- The fields of a register from its number. -/
theorem scrollFields_of_toNat {v : BitVec 15} {n : Nat} (h : v.toNat = n) :
    scrollFields v = (n % 32, n / 32 % 32, n / 1024 % 2, n / 2048 % 2, n / 4096) := by
  subst h; rfl

/-! ## CTRL and SCROLL -/

theorem scrollFields_writeCtrl (u : Ppu) (d : Byte) :
    scrollFields (writeCtrl u d).t = (coarseXOf u.t, coarseYOf u.t, d.toNat % 2, d.toNat / 2 % 2, fineYOf u.t) := by
  have hput : scrollFields ((d &&& 0x03).setWidth 15 <<< 10) = (0, 0, d.toNat % 2, d.toNat / 2 % 2, 0) := by
    have hplaced := byte_placed_toNat (k := 10) (and_lowMask_toNat (k := 2) d 0x03 rfl) (by omega)
    simp only [scrollFields_of_toNat hplaced, Prod.mk.injEq]
    omega
  simpa [writeCtrl] using scrollFields_or (scrollFields_clearNametable u.t) hput

theorem writeScroll_first {u : Ppu} (h : u.w = false) (d : Byte) :
    writeScroll u d = { u with fineX := BitVec.ofNat 3 d.toNat, t := (writeScroll u d).t, w := true } := by
  have hfine : (d &&& 0x07).setWidth 3 = BitVec.ofNat 3 d.toNat := by
    rw [BitVec.toNat_eq, BitVec.toNat_setWidth, and_lowMask_toNat (k := 3) d 0x07 rfl, BitVec.toNat_ofNat]; omega
  simp only [writeScroll, h, hfine, Bool.false_eq_true, if_false]

theorem writeScroll_second {u : Ppu} (h : u.w = true) (d : Byte) :
    writeScroll u d = { u with t := (writeScroll u d).t, w := false } := by
  simp only [writeScroll, h, if_true]

theorem scrollFields_writeScroll_first {u : Ppu} (h : u.w = false) (d : Byte) :
    scrollFields (writeScroll u d).t = (d.toNat / 8, coarseYOf u.t, nametableXOf u.t, nametableYOf u.t, fineYOf u.t) := by
  have hput : scrollFields ((d >>> 3).setWidth 15) = (d.toNat / 8, 0, 0, 0, 0) := by
    rw [scrollFields_of_toNat (byte_setWidth15_toNat _), byte_shiftRight_three_toNat]
    simp only [Prod.mk.injEq]
    omega
  simpa [writeScroll, h] using scrollFields_or (scrollFields_clearCoarseX u.t) hput

theorem scrollFields_writeScroll_second {u : Ppu} (h : u.w = true) (d : Byte) :
    scrollFields (writeScroll u d).t = (coarseXOf u.t, d.toNat / 8, nametableXOf u.t, nametableYOf u.t, d.toNat % 8) := by
  have hfine : scrollFields ((d &&& 0x07).setWidth 15 <<< 12) = (0, 0, 0, 0, d.toNat % 8) := by
    have hplaced := byte_placed_toNat (k := 12) (and_lowMask_toNat (k := 3) d 0x07 rfl) (by omega)
    simp only [scrollFields_of_toNat hplaced, Prod.mk.injEq]
    omega
  have hcoarse : scrollFields ((d >>> 3).setWidth 15 <<< 5) = (0, d.toNat / 8, 0, 0, 0) := by
    have hplaced := byte_placed_toNat (k := 5) (byte_shiftRight_three_toNat d) (by omega)
    simp only [scrollFields_of_toNat hplaced, Prod.mk.injEq]
    omega
  simpa [writeScroll, h] using scrollFields_or (scrollFields_or (scrollFields_clearVertical u.t) hfine) hcoarse

/-! ## ADDR -/

theorem register_clearLowByte_toNat (v : BitVec 15) : (v &&& 0x7F00).toNat = 2 ^ 8 * (v.toNat / 256) := by
  have hlow : (v &&& 0x7F00).extractLsb' 0 8 = 0#8 := by simp [BitVec.extractLsb'_and]
  have hhigh : (v &&& 0x7F00).extractLsb' 8 7 = v.extractLsb' 8 7 := by
    rw [BitVec.extractLsb'_and]; exact BitVec.and_allOnes
  have hv := v.isLt
  have hmasked := (v &&& 0x7F00).isLt
  simp only [BitVec.toNat_eq, BitVec.extractLsb'_toNat, Nat.shiftRight_eq_div_pow, BitVec.toNat_ofNat] at hlow hhigh
  omega

theorem writeAddr_first {u : Ppu} (h : u.w = false) (d : Byte) :
    writeAddr u d = { u with t := (writeAddr u d).t, w := true } := by
  simp only [writeAddr, h, Bool.false_eq_true, if_false]

theorem writeAddr_second {u : Ppu} (h : u.w = true) (d : Byte) :
    writeAddr u d = { u with t := (writeAddr u d).t, v := (writeAddr u d).t, w := false } := by
  simp only [writeAddr, h, if_true]

theorem writeAddr_first_t_toNat {u : Ppu} (h : u.w = false) (d : Byte) :
    (writeAddr u d).t.toNat = d.toNat % 64 * 256 + u.t.toNat % 256 := by
  have hhigh := byte_placed_toNat (k := 8) (and_lowMask_toNat (k := 6) d 0x3F rfl) (by omega)
  have hlow : u.t.toNat % 2 ^ 8 < 2 ^ 8 := Nat.mod_lt _ (by decide)
  have ht : (writeAddr u d).t = (u.t &&& (0x00FF : BitVec 15)) ||| (d &&& 0x3F).setWidth 15 <<< 8 := by simp [writeAddr, h]
  rw [ht, BitVec.toNat_or, hhigh, and_lowMask_toNat (k := 8) u.t 0x00FF rfl, Nat.or_comm, Nat.mul_comm,
    ← Nat.two_pow_add_eq_or_of_lt hlow]
  omega

theorem writeAddr_second_t_toNat {u : Ppu} (h : u.w = true) (d : Byte) :
    (writeAddr u d).t.toNat = u.t.toNat / 256 * 256 + d.toNat := by
  simp only [writeAddr, h, if_true]
  rw [BitVec.toNat_or, register_clearLowByte_toNat, byte_setWidth15_toNat, ← Nat.two_pow_add_eq_or_of_lt d.isLt,
    Nat.mul_comm]

/-- An ADDR pair from the toggle 0 sets `t` and `v` to the address and leaves the toggle 0. -/
theorem writeAddr_pair {u : Ppu} (h : u.w = false) {a : Word} (ha : a.toNat < 0x4000) :
    writeAddr (writeAddr u (hiByte a)) (loByte a) = { u with t := a.setWidth 15, v := a.setWidth 15, w := false } := by
  have hw : (writeAddr u (hiByte a)).w = true := by rw [writeAddr_first h]
  have ht : (writeAddr (writeAddr u (hiByte a)) (loByte a)).t = a.setWidth 15 := by
    rw [BitVec.toNat_eq, writeAddr_second_t_toNat hw, writeAddr_first_t_toNat h, hiByte_toNat, loByte_toNat,
      BitVec.toNat_setWidth]
    omega
  rw [writeAddr_second hw, ht, writeAddr_first h]

/-! ## DATA -/

theorem vramAddr_toNat (u : Ppu) : (vramAddr u).toNat = u.v.toNat % 0x4000 := by
  rw [vramAddr, ppuAddr_toNat, BitVec.toNat_setWidth]; omega

theorem vramAddr_eq_ofNat (u : Ppu) : vramAddr u = BitVec.ofNat 16 (u.v.toNat % 0x4000) := by
  rw [← vramAddr_toNat, BitVec.ofNat_toNat, BitVec.setWidth_eq]

theorem v_add_vramInc (u : Ppu) :
    u.v + vramInc u = BitVec.ofNat 15 (u.v.toNat + if u.ctrl.getLsbD 2 then 32 else 1) := by
  rw [BitVec.ofNat_add, BitVec.ofNat_toNat, BitVec.setWidth_eq, vramInc, bitOf]
  split <;> rfl

/-- The name-table address under a palette address. -/
theorem palette_sub_eq_ofNat {a : Nat} (h : 0x3F00 ≤ a) (h' : a < 0x4000) :
    BitVec.ofNat 16 a - 0x1000 = BitVec.ofNat 16 (a - 0x1000) := by
  bv_omega

theorem portRead_data (cart : Option Cartridge) (u : Ppu) :
    portRead cart u .data =
      (if u.v.toNat % 0x4000 < 0x3F00 then u.rdbuf else ppuRead cart u (BitVec.ofNat 16 (u.v.toNat % 0x4000)),
       { u with
         rdbuf := ppuRead cart u (BitVec.ofNat 16
           (if u.v.toNat % 0x4000 < 0x3F00 then u.v.toNat % 0x4000 else u.v.toNat % 0x4000 - 0x1000))
         v := BitVec.ofNat 15 (u.v.toNat + if u.ctrl.getLsbD 2 then 32 else 1) }) := by
  simp only [portRead, readData, vramAddr_toNat, ← v_add_vramInc]
  split
  · rw [vramAddr_eq_ofNat]; rfl
  · next h =>
    rw [vramAddr_eq_ofNat, palette_sub_eq_ofNat (by omega) (Nat.mod_lt _ (by decide))]; rfl

theorem advanceV_ppuWrite (cart : Option Cartridge) (u : Ppu) (a : Word) (d : Byte) :
    advanceV (ppuWrite cart u a d).2 = { (ppuWrite cart u a d).2 with v := u.v + vramInc u } := by
  rw [ppuWrite_frame]; rfl

theorem portWrite_data (cart : Option Cartridge) (u : Ppu) (d : Byte) :
    portWrite cart u .data d =
      ((ppuWrite cart u (vramAddr u) d).1, { (ppuWrite cart u (vramAddr u) d).2 with v := u.v + vramInc u }) := by
  rw [portWrite, writeData, advanceV_ppuWrite]

end Sys2Proof.Machine
end

section

namespace Sys2Proof.Proofs

open Sys2Proof.Machine

/-- Settles O47, port by port: the name-table bits of `t` are the two bits of the byte that CTRL's write puts there. -/
theorem controlAndStatusPorts : Obligations.ControlAndStatusPorts := by
  unfold Obligations.ControlAndStatusPorts
  intro cart u d
  refine ⟨rfl, rfl, ⟨(writeCtrl u d).t, rfl, scrollFields_writeCtrl u d⟩, rfl, rfl, rfl, fun i hi => ?_⟩
  fin_cases hi <;> rfl

/-- Settles O48, by the toggle and the port. -/
theorem scrollAndAddressWrites : Obligations.ScrollAndAddressWrites := by
  unfold Obligations.ScrollAndAddressWrites
  intro cart u d
  refine ⟨fun h => ⟨?_, ?_⟩, fun h => ⟨?_, ?_⟩⟩
  · exact ⟨_, congrArg (cart, ·) (writeScroll_first h d), scrollFields_writeScroll_first h d⟩
  · exact ⟨_, congrArg (cart, ·) (writeAddr_first h d), writeAddr_first_t_toNat h d⟩
  · exact ⟨_, congrArg (cart, ·) (writeScroll_second h d), scrollFields_writeScroll_second h d⟩
  · exact ⟨_, congrArg (cart, ·) (writeAddr_second h d), writeAddr_second_t_toNat h d⟩

/-- Settles O49: a read and a write reach the PPU space at `v` modulo 0x4000, and the write leaves `v` and CTRL to the
increment. -/
theorem dataPortAccess : Obligations.DataPortAccess := by
  unfold Obligations.DataPortAccess
  intro cart u d
  refine ⟨portRead_data cart u, ?_⟩
  rw [portWrite_data, vramAddr_eq_ofNat, v_add_vramInc]

end Sys2Proof.Proofs
end

section
/-! SUPPORT. ADDR and DATA through the bus: the state with an address set, and with a byte stored there and the address set
again (46_ppu_register_ports.md R324 to R326, R328). -/

namespace Sys2Proof.Machine

theorem portOf_addr : portOf 0x2006 = .addr := by decide

theorem portOf_data : portOf 0x2007 = .data := by decide

theorem memWrite_addr (d : Byte) (s : State) : memWrite 0x2006 d s = { s with ppu := writeAddr s.ppu d } := by
  rw [memWrite_port (by decide) (by decide), portOf_addr, portWrite]

/-- The state with `t` and `v` at a PPU address and the toggle 0, as an ADDR pair leaves it. -/
def pointedAt (a : Word) (s : State) : State :=
  { s with ppu := { s.ppu with t := a.setWidth 15, v := a.setWidth 15, w := false } }

/-- An ADDR pair of bus writes, with the toggle 0. -/
theorem memWrite_addr_pair {s : State} {a : Word} (hw : s.ppu.w = false) (ha : a.toNat < 0x4000) :
    memWrite 0x2006 (loByte a) (memWrite 0x2006 (hiByte a) s) = pointedAt a s := by
  rw [memWrite_addr, memWrite_addr, pointedAt, writeAddr_pair hw ha]

theorem memWrite_data (d : Byte) (s : State) :
    memWrite 0x2007 d s =
      { s with
        cart := (ppuWrite s.cart s.ppu (vramAddr s.ppu) d).1
        ppu := { (ppuWrite s.cart s.ppu (vramAddr s.ppu) d).2 with v := s.ppu.v + vramInc s.ppu } } := by
  rw [memWrite_port (by decide) (by decide), portOf_data, portWrite_data]

theorem memRead_data (s : State) :
    memRead 0x2007 s = ((portRead s.cart s.ppu .data).1, { s with ppu := (portRead s.cart s.ppu .data).2 }) := by
  rw [memRead_port (by decide) (by decide), portOf_data]

/-- A DATA read below the palette answers the buffer and fills it from the address. -/
theorem memRead_data_buffered {s : State} (h : s.ppu.v.toNat % 0x4000 < 0x3F00) :
    (memRead 0x2007 s).1 = s.ppu.rdbuf ∧
      (memRead 0x2007 s).2.ppu =
        { s.ppu with
          rdbuf := ppuRead s.cart s.ppu (vramAddr s.ppu)
          v := BitVec.ofNat 15 (s.ppu.v.toNat + if s.ppu.ctrl.getLsbD 2 then 32 else 1) } := by
  rw [memRead_data, portRead_data, if_pos h, if_pos h, vramAddr_eq_ofNat]
  exact ⟨rfl, rfl⟩

/-- A DATA read in the palette answers the byte at the address. -/
theorem memRead_data_palette {s : State} (h : 0x3F00 ≤ s.ppu.v.toNat % 0x4000) :
    (memRead 0x2007 s).1 = ppuRead s.cart s.ppu (vramAddr s.ppu) := by
  rw [memRead_data, portRead_data, if_neg (by omega), vramAddr_eq_ofNat]

/-! ## A byte stored and the address set again -/

theorem pointedAt_v_toNat {a : Word} (ha : a.toNat < 0x4000) (s : State) : (pointedAt a s).ppu.v.toNat = a.toNat := by
  rw [pointedAt, BitVec.toNat_setWidth]; omega

theorem vramAddr_pointedAt {a : Word} (ha : a.toNat < 0x4000) (s : State) : vramAddr (pointedAt a s).ppu = a := by
  rw [BitVec.toNat_eq, vramAddr_toNat, pointedAt_v_toNat ha]; omega

/-- The state after a DATA write of `d` at the address `a`, with the address set before it and after it. -/
def storedAt (a : Word) (d : Byte) (s : State) : State := pointedAt a (memWrite 0x2007 d (pointedAt a s))

/-- A DATA write leaves the toggle where the ADDR pair before it left it. -/
theorem memWrite_data_pointedAt_w (a : Word) (d : Byte) (s : State) :
    (memWrite 0x2007 d (pointedAt a s)).ppu.w = false := by
  rw [memWrite_data, ppuWrite_frame]; rfl

theorem storedAt_ppu_frame (a : Word) (d : Byte) (s : State) :
    (storedAt a d s).ppu =
      { s.ppu with
        t := a.setWidth 15, v := a.setWidth 15, w := false
        nt0 := (storedAt a d s).ppu.nt0
        nt1 := (storedAt a d s).ppu.nt1
        pal := (storedAt a d s).ppu.pal
        ipat := (storedAt a d s).ppu.ipat } := by
  rw [storedAt, memWrite_data, ppuWrite_frame]; rfl

theorem ppuRead_storedAt {a : Word} (ha : a.toNat < 0x4000) (d : Byte) (s : State) :
    ppuRead (storedAt a d s).cart (storedAt a d s).ppu (vramAddr (storedAt a d s).ppu) = d := by
  have hread := ppuRead_ppuWrite (pointedAt a s).cart (pointedAt a s).ppu a a d
  rw [if_pos rfl] at hread
  rw [storedAt, vramAddr_pointedAt ha, memWrite_data, vramAddr_pointedAt ha]
  exact hread

end Sys2Proof.Machine
end

section

namespace Sys2Proof.Proofs

open Sys2Proof.Machine

/-- Settles O50: the address set again is that of the byte stored, the first read below the palette moves the byte into the
buffer and `v` on by the increment, and the second takes it from there while `v` is still below the palette. -/
theorem dataPortRoundTrip : Obligations.DataPortRoundTrip := by
  unfold Obligations.DataPortRoundTrip
  intro s a d hw ha
  dsimp only
  rw [memWrite_addr_pair hw ha, memWrite_addr_pair (memWrite_data_pointedAt_w a d s) ha, ← storedAt]
  have hv : (storedAt a d s).ppu.v.toNat = a.toNat := pointedAt_v_toNat ha _
  have hbyte := ppuRead_storedAt ha d s
  constructor
  · intro hlow
    obtain ⟨hfirst, hppu⟩ := memRead_data_buffered (s := storedAt a d s) (by omega)
    rw [hbyte, hv, storedAt_ppu_frame] at hppu
    refine ⟨by rw [hfirst, storedAt_ppu_frame], by rw [hppu], fun hnext => ?_⟩
    have hstill : (memRead 0x2007 (storedAt a d s)).2.ppu.v.toNat % 0x4000 < 0x3F00 := by
      rw [hppu]
      generalize a.toNat + (if s.ppu.ctrl.getLsbD 2 then 32 else 1) = n at hnext
      rw [BitVec.toNat_ofNat]
      omega
    obtain ⟨hsecond, -⟩ := memRead_data_buffered hstill
    rw [hsecond, hppu]
  · intro hpal
    rw [memRead_data_palette (by omega), hbyte]

end Sys2Proof.Proofs
end

section
/-! SUPPORT. A dot as its parts: the flag events and the pixel write outputs that the pipeline does not read, the pipeline
writes `v`, the shifters and the fetch latches, `Advance` writes the raster position (47_ppu_dot_pipeline.md R350). -/

namespace Sys2Proof.Machine

open Sys2Proof.Claims

/-- A PPU with the parts that flag events and pixel output write taken from another. -/
def Ppu.withOutputs (u w : Ppu) : Ppu :=
  { u with status := w.status, oddFrame := w.oddFrame, nmiPending := w.nmiPending, fb := w.fb }

/-- A PPU with the parts that the pipeline writes taken from another. -/
def Ppu.withPipeline (u w : Ppu) : Ppu :=
  { u with
    v := w.v, shPatLo := w.shPatLo, shPatHi := w.shPatHi, shAttrLo := w.shAttrLo, shAttrHi := w.shAttrHi
    ntLatch := w.ntLatch, atLatch := w.atLatch, loLatch := w.loLatch, hiLatch := w.hiLatch }

/-! ## What each part writes -/

theorem flagEvents_frame (u : Ppu) :
    flagEvents u =
      { u with
        status := (flagEvents u).status, oddFrame := (flagEvents u).oddFrame
        nmiPending := (flagEvents u).nmiPending } := by
  unfold flagEvents
  split_ifs <;> rfl

theorem pixelOutput_frame (g : Config.RenderGating) (u : Ppu) :
    pixelOutput g u = { u with fb := (pixelOutput g u).fb } := by
  unfold pixelOutput
  split_ifs <;> rfl

theorem fetchPhase_frame (cart : Option Cartridge) (phase : Nat) (u : Ppu) :
    fetchPhase cart phase u = u.withPipeline (fetchPhase cart phase u) := by
  unfold fetchPhase
  split <;> rfl

theorem fetchWork_frame (cart : Option Cartridge) (u : Ppu) : fetchWork cart u = u.withPipeline (fetchWork cart u) := by
  unfold fetchWork
  split
  · rw [fetchPhase_frame]; rfl
  · rfl

theorem scrollWork_frame (u : Ppu) : scrollWork u = { u with v := (scrollWork u).v } := by
  unfold scrollWork
  split_ifs <;> rfl

theorem redundantFetch_frame (cart : Option Cartridge) (u : Ppu) :
    redundantFetch cart u = { u with ntLatch := (redundantFetch cart u).ntLatch } := by
  unfold redundantFetch
  split_ifs <;> rfl

theorem pipelineWork_frame (g : Config.RenderGating) (cart : Option Cartridge) (u : Ppu) :
    pipelineWork g cart u = u.withPipeline (pipelineWork g cart u) := by
  unfold pipelineWork
  split
  · rw [redundantFetch_frame, scrollWork_frame, fetchWork_frame]; rfl
  · rfl

theorem advance_frame (u : Ppu) : advance u = { u with scanline := (advance u).scanline, dot := (advance u).dot } := by
  unfold advance
  split_ifs <;> rfl

/-! ## The pipeline and the raster do not read the outputs -/

@[simp] theorem withOutputs_dot (u w : Ppu) : (u.withOutputs w).dot = u.dot := rfl
@[simp] theorem withOutputs_scanline (u w : Ppu) : (u.withOutputs w).scanline = u.scanline := rfl

theorem fetchPhase_withOutputs (cart : Option Cartridge) (phase : Nat) (u w : Ppu) :
    fetchPhase cart phase (u.withOutputs w) = (fetchPhase cart phase u).withOutputs w := by
  unfold fetchPhase
  split <;> rfl

theorem fetchWork_withOutputs (cart : Option Cartridge) (u w : Ppu) :
    fetchWork cart (u.withOutputs w) = (fetchWork cart u).withOutputs w := by
  have hshift : shiftAll (u.withOutputs w) = (shiftAll u).withOutputs w := rfl
  rw [fetchWork, hshift, withOutputs_dot, fetchPhase_withOutputs, ← apply_ite (Ppu.withOutputs · w), fetchWork]

theorem scrollWork_withOutputs (u w : Ppu) : scrollWork (u.withOutputs w) = (scrollWork u).withOutputs w := by
  rw [scrollWork, scrollWork, withOutputs_dot, withOutputs_scanline]
  split_ifs <;> rfl

theorem redundantFetch_withOutputs (cart : Option Cartridge) (u w : Ppu) :
    redundantFetch cart (u.withOutputs w) = (redundantFetch cart u).withOutputs w := by
  rw [redundantFetch, redundantFetch, withOutputs_dot]
  split_ifs <;> rfl

theorem pipelineWork_withOutputs (g : Config.RenderGating) (cart : Option Cartridge) (u w : Ppu) :
    pipelineWork g cart (u.withOutputs w) = (pipelineWork g cart u).withOutputs w := by
  have hgate : (renderLine (u.withOutputs w).scanline && rendering g (u.withOutputs w)) =
      (renderLine u.scanline && rendering g u) := rfl
  rw [pipelineWork, hgate, fetchWork_withOutputs, scrollWork_withOutputs, redundantFetch_withOutputs,
    ← apply_ite (Ppu.withOutputs · w), pipelineWork]

theorem advance_withOutputs (u w : Ppu) : advance (u.withOutputs w) = (advance u).withOutputs w := by
  rw [advance, advance, withOutputs_dot, withOutputs_scanline]
  split_ifs <;> rfl

/-! ## The dot -/

/-- The part of a dot that is not output: the pipeline and the raster. -/
def pipelineDot (g : Config.RenderGating) (cart : Option Cartridge) (u : Ppu) : Ppu := advance (pipelineWork g cart u)

theorem pipelineDot_withOutputs (g : Config.RenderGating) (cart : Option Cartridge) (u w : Ppu) :
    pipelineDot g cart (u.withOutputs w) = (pipelineDot g cart u).withOutputs w := by
  rw [pipelineDot, pipelineWork_withOutputs, advance_withOutputs, pipelineDot]

/-- A dot is its pipeline part with the outputs of its first two parts. -/
theorem ppuStep_eq (g : Config.RenderGating) (cart : Option Cartridge) (u : Ppu) :
    ppuStep g cart u = (pipelineDot g cart u).withOutputs (pixelOutput g (flagEvents u)) := by
  have houtputs : pixelOutput g (flagEvents u) = u.withOutputs (pixelOutput g (flagEvents u)) := by
    rw [pixelOutput_frame, flagEvents_frame]; rfl
  rw [ppuStep, ← pipelineDot, houtputs, pipelineDot_withOutputs]; rfl

theorem ppuRun_succ (g : Config.RenderGating) (cart : Option Cartridge) (n : Nat) (u : Ppu) :
    ppuRun g cart (n + 1) u = ppuStep g cart (ppuRun g cart n u) := by
  induction n generalizing u with
  | zero => rfl
  | succ n ih => exact ih (ppuStep g cart u)

/-- The pipeline parts of a run of dots do not depend on the outputs of the dots before. -/
theorem ppuRun_eq (g : Config.RenderGating) (cart : Option Cartridge) (n : Nat) (u : Ppu) :
    ppuRun g cart n u = ((pipelineDot g cart)^[n] u).withOutputs (ppuRun g cart n u) := by
  induction n with
  | zero => rfl
  | succ n ih =>
    rw [Function.iterate_succ_apply', ppuRun_succ, ppuStep_eq, ih, pipelineDot_withOutputs]; rfl

/-- `Advance` does not read what the pipeline writes. -/
theorem advance_withPipeline (u w : Ppu) : advance (u.withPipeline w) = (advance u).withPipeline w := by
  have hdot : (u.withPipeline w).dot = u.dot := rfl
  have hline : (u.withPipeline w).scanline = u.scanline := rfl
  rw [advance, advance, hdot, hline]
  split_ifs <;> rfl

/-- The pipeline part of a dot moves the raster and writes the pipeline. -/
theorem pipelineDot_eq (g : Config.RenderGating) (cart : Option Cartridge) (u : Ppu) :
    pipelineDot g cart u = (advance u).withPipeline (pipelineWork g cart u) := by
  rw [pipelineDot, pipelineWork_frame, advance_withPipeline]; rfl

/-! ## The raster position -/

theorem advance_position {u : Ppu} {n : Nat} (h : u.scanline = n / 341 % 262) (h' : u.dot = n % 341) :
    (advance u).scanline = (n + 1) / 341 % 262 ∧ (advance u).dot = (n + 1) % 341 := by
  unfold advance
  split_ifs <;> dsimp only <;> omega

/-! ## The gates -/

theorem rendering_maskGated_iff (u : Ppu) : rendering .maskGated u = true ↔ u.mask &&& 0x18 ≠ 0 := by
  unfold rendering
  generalize u.mask = m
  revert m
  decide +kernel

theorem renderLine_iff (sl : Nat) : renderLine sl = true ↔ sl < 240 ∨ sl = 261 := by
  simp only [renderLine, Bool.or_eq_true, decide_eq_true_eq, beq_iff_eq]
  omega

theorem fetchDot_iff (d : Nat) : fetchDot d = true ↔ (1 ≤ d ∧ d ≤ 256) ∨ (321 ≤ d ∧ d ≤ 336) := by
  simp [fetchDot]

/-- On an idle line or with rendering off the pipeline does nothing. -/
theorem pipelineWork_idle {g : Config.RenderGating} {u : Ppu} (cart : Option Cartridge)
    (h : renderLine u.scanline = false ∨ rendering g u = false) : pipelineWork g cart u = u := by
  unfold pipelineWork
  rcases h with h | h <;> simp [h]

/-- On a render line with rendering on the pipeline does its three parts. -/
theorem pipelineWork_active {g : Config.RenderGating} {u : Ppu} (cart : Option Cartridge)
    (h : renderLine u.scanline = true) (h' : rendering g u = true) :
    pipelineWork g cart u = redundantFetch cart (scrollWork (fetchWork cart u)) := by
  rw [pipelineWork, h, h']; rfl

/-- Outside the fetch dots the pipeline changes of `v` what the scroll updates do. -/
theorem pipelineWork_v_of_not_fetchDot {g : Config.RenderGating} {u : Ppu} (cart : Option Cartridge)
    (h : renderLine u.scanline = true) (h' : rendering g u = true) (hd : fetchDot u.dot = false) :
    (pipelineWork g cart u).v = (scrollWork u).v := by
  rw [pipelineWork_active cart h h', redundantFetch_frame, fetchWork, hd]; rfl

/-! ## The pixel -/

theorem flagNat_getLsbD (sh : BitVec 16) (i : Nat) : flagNat (sh.getLsbD i) = sh.toNat / 2 ^ i % 2 := by
  rw [flagNat, BitVec.getLsbD, Nat.testBit_eq_decide_div_mod_eq]
  rcases Nat.mod_two_eq_zero_or_one (sh.toNat / 2 ^ i) with h | h <;> rw [h] <;> rfl

/-- The palette entry of a pixel from the shifters' bits as numbers. -/
theorem pixelIndex_maskGated (u : Ppu) :
    pixelIndex .maskGated u =
      if u.mask.getLsbD 3 = true ∧ (pixelBits u).1 ≠ 0 then 4 * (pixelBits u).2 + (pixelBits u).1 else 0 := by
  have hbits : pixelIndex .maskGated u =
      if u.mask.getLsbD 3 = true then paletteIndex (pixelBits u).1 (pixelBits u).2 else 0 := by
    simp only [pixelIndex, showBackground, bitOf, shifterBit, flagNat_getLsbD, pixelBits]
  rw [hbits, paletteIndex, ite_and, ite_not]

theorem pixelOutput_fb (g : Config.RenderGating) (u : Ppu) :
    (pixelOutput g u).fb =
      if u.scanline ≤ 239 ∧ 1 ≤ u.dot ∧ u.dot ≤ 256 then
        storeByte u.fb (u.dot - 1 + u.scanline * 256) (pixelColour g u)
      else u.fb := by
  unfold pixelOutput
  split_ifs <;> rfl

/-- The flag events change nothing that the pixel depends on, and the parts after it leave the frame buffer alone. -/
theorem ppuStep_fb (g : Config.RenderGating) (cart : Option Cartridge) (u : Ppu) :
    (ppuStep g cart u).fb = (pixelOutput g u).fb := by
  have hfb : (ppuStep g cart u).fb = (pixelOutput g (flagEvents u)).fb := by rw [ppuStep_eq]; rfl
  rw [hfb, flagEvents_frame, pixelOutput_fb, pixelOutput_fb]; rfl

end Sys2Proof.Machine
end

section

namespace Sys2Proof.Proofs

open Sys2Proof.Machine

/-- Settles O51, by induction on the dots: each moves the raster to the next position. -/
theorem rasterPositionOfNthDot : Obligations.RasterPositionOfNthDot := by
  unfold Obligations.RasterPositionOfNthDot
  intro g cart u n hline hdot
  induction n with
  | zero => exact ⟨hline, hdot⟩
  | succ n ih =>
    obtain ⟨ihline, ihdot⟩ := ih
    rw [ppuRun_succ, ppuStep_eq, pipelineDot_eq]
    exact advance_position ihline ihdot

/-- Settles O52: the pixel, the pipeline and the raster leave what the flag event wrote. -/
theorem flagEventsOfADot : Obligations.FlagEventsOfADot := by
  unfold Obligations.FlagEventsOfADot
  intro g cart u
  have hnmi : (if bitOf u.ctrl 7 then true else u.nmiPending) = (u.nmiPending || u.ctrl.getLsbD 7) := by
    rw [bitOf, Bool.or_comm]
    cases u.ctrl.getLsbD 7 <;> rfl
  rw [ppuStep_eq, pixelOutput_frame]
  simp only [Ppu.withOutputs, flagEvents]
  split_ifs <;> simp [clearFlags, setVblank, hnmi]

/-- Settles O53: each part of a dot writes its own fields, and the idle pipeline writes none. -/
theorem whatADotLeavesAlone : Obligations.WhatADotLeavesAlone := by
  unfold Obligations.WhatADotLeavesAlone
  intro cart u
  rw [ppuStep_eq, pipelineDot_eq, advance_frame]
  refine ⟨rfl, rfl, fun hidle => ?_⟩
  have hgate : renderLine u.scanline = false ∨ rendering .maskGated u = false := by
    rw [Bool.eq_false_iff, Bool.eq_false_iff, ne_eq, ne_eq, renderLine_iff, rendering_maskGated_iff]
    exact hidle.imp (by omega) not_not.2
  rw [pipelineWork_idle cart hgate]
  exact ⟨rfl, rfl⟩

/-- Settles O56: dots 257 to 320 run no fetch phase, so `v` changes as the scroll updates of R350 say. -/
theorem scrollCopiesFallOnTheirDots : Obligations.ScrollCopiesFallOnTheirDots := by
  unfold Obligations.ScrollCopiesFallOnTheirDots
  intro cart u hline hmask hlo hhi
  have hfetch : fetchDot u.dot = false := by rw [Bool.eq_false_iff, ne_eq, fetchDot_iff]; omega
  have hv : (ppuStep .maskGated cart u).v = (scrollWork u).v := by
    rw [ppuStep_eq, pipelineDot_eq]
    exact pipelineWork_v_of_not_fetchDot cart ((renderLine_iff _).2 hline) ((rendering_maskGated_iff u).2 hmask) hfetch
  rw [hv, scrollWork, if_neg (by omega : u.dot ≠ 256)]
  split_ifs <;> rfl

/-- Settles O57: the pixel reads the shifters as the dot finds them, since the pipeline comes after it. -/
theorem pixelOutput : Obligations.PixelOutput := by
  unfold Obligations.PixelOutput
  intro cart u
  dsimp only
  rw [ppuStep_fb, pixelOutput_fb, ← pixelIndex_maskGated, Nat.mul_comm 256]; rfl

end Sys2Proof.Proofs
end

section
/-! SUPPORT. The addresses that a fetch cycle reads and the palette selector that it takes, by the fields of `v`
(47_ppu_dot_pipeline.md R361 to R364). -/

namespace Sys2Proof.Machine

open Sys2Proof.Claims

/-! ## Words made of fields -/

theorem v16_toNat (u : Ppu) : (v16 u).toNat = u.v.toNat := by
  have := u.v.isLt
  rw [v16, BitVec.toNat_setWidth, Nat.mod_eq_of_lt (by omega)]

/-- A mask of `w` ones from bit `k` on cuts out a field of a number. -/
theorem and_fieldMask (n k w : Nat) : n &&& 2 ^ k * (2 ^ w - 1) = 2 ^ k * (n / 2 ^ k % 2 ^ w) := by
  rw [← Nat.and_two_pow_sub_one_eq_mod, ← Nat.shiftRight_eq_div_pow]
  apply Nat.eq_of_testBit_eq
  intro i
  by_cases h : k ≤ i <;> simp [Nat.testBit_two_pow_mul, h, Bool.and_comm]

/-- A field of `v` as the fetch addresses take it: shifted down by `s`, then `w` bits from bit `k` on. -/
theorem v16_field (u : Ppu) (s k w : Nat) (h : 2 ^ k * (2 ^ w - 1) < 2 ^ 16) :
    ((v16 u >>> s) &&& BitVec.ofNat 16 (2 ^ k * (2 ^ w - 1))).toNat = 2 ^ k * (u.v.toNat / 2 ^ s / 2 ^ k % 2 ^ w) := by
  rw [BitVec.toNat_and, BitVec.toNat_ushiftRight, v16_toNat, BitVec.toNat_ofNat, Nat.mod_eq_of_lt h,
    Nat.shiftRight_eq_div_pow, and_fieldMask]

/-- Fields put side by side by `|||` add up. -/
theorem or_fields {m n b c : Nat} (a : Nat) (hb : b < 2 ^ m) (hc : c < 2 ^ n) :
    2 ^ (m + n) * a ||| 2 ^ n * b ||| c = 2 ^ n * (2 ^ m * a + b) + c := by
  have hlow : 2 ^ n * b < 2 ^ (m + n) := by
    rw [Nat.pow_add, Nat.mul_comm]
    exact Nat.mul_lt_mul_of_pos_right hb (Nat.two_pow_pos n)
  rw [← Nat.two_pow_add_eq_or_of_lt hlow, Nat.pow_add, Nat.mul_comm (2 ^ m), Nat.mul_assoc, ← Nat.mul_add,
    ← Nat.two_pow_add_eq_or_of_lt hc]

/-! ## The addresses of the fetches -/

/-- The first address of the name table that `v` selects. -/
def nameTableBase (v : BitVec 15) : Nat := 0x2000 + 0x800 * nametableYOf v + 0x400 * nametableXOf v

theorem tileAddr_eq (u : Ppu) :
    tileAddr u = BitVec.ofNat 16 (nameTableBase u.v + 32 * coarseYOf u.v + coarseXOf u.v) := by
  have hmask : ((v16 u) &&& 0x0FFF).toNat = u.v.toNat % 2 ^ 12 :=
    (v16_field u 0 0 12 (by decide)).trans (by omega)
  have hbits : (tileAddr u).toNat = 2 ^ 13 * 1 + u.v.toNat % 2 ^ 12 := by
    rw [Nat.two_pow_add_eq_or_of_lt (by omega), ← hmask]; rfl
  rw [BitVec.toNat_eq, hbits]
  simp only [nameTableBase, coarseXOf, coarseYOf, nametableXOf, nametableYOf, BitVec.toNat_ofNat]
  omega

theorem attrAddr_eq (u : Ppu) :
    attrAddr u = BitVec.ofNat 16 (nameTableBase u.v + 0x3C0 + 8 * (coarseYOf u.v / 4) + coarseXOf u.v / 4) := by
  have htable : (0x23C0#16 ||| (v16 u &&& 0x0C00#16)).toNat = 2 ^ 6 * (0x8F + 16 * (u.v.toNat / 1024 % 4)) := by
    have hfour : ∀ n < 4, 0x23C0 ||| 1024 * n = 2 ^ 6 * (0x8F + 16 * n) := by decide
    have hnt : (v16 u &&& 0x0C00#16).toNat = 1024 * (u.v.toNat / 1024 % 4) :=
      (v16_field u 0 10 2 (by decide)).trans (by omega)
    rw [BitVec.toNat_or, hnt]
    exact hfour _ (Nat.mod_lt _ (by decide))
  have hcy : ((v16 u >>> 4) &&& 0x38#16).toNat = 2 ^ 3 * (coarseYOf u.v / 4) :=
    (v16_field u 4 3 3 (by decide)).trans (by unfold coarseYOf; omega)
  have hcx : ((v16 u >>> 2) &&& 0x07#16).toNat = coarseXOf u.v / 4 :=
    (v16_field u 2 0 3 (by decide)).trans (by unfold coarseXOf; omega)
  have hy : coarseYOf u.v / 4 < 2 ^ 3 := by unfold coarseYOf; omega
  have hx : coarseXOf u.v / 4 < 2 ^ 3 := by unfold coarseXOf; omega
  have hbits : (attrAddr u).toNat =
      2 ^ 3 * (2 ^ 3 * (0x8F + 16 * (u.v.toNat / 1024 % 4)) + coarseYOf u.v / 4) + coarseXOf u.v / 4 := by
    change (0x23C0#16 ||| (v16 u &&& 0x0C00#16) ||| ((v16 u >>> 4) &&& 0x38#16) ||| ((v16 u >>> 2) &&& 0x07#16)).toNat = _
    rw [BitVec.toNat_or, BitVec.toNat_or, htable, hcy, hcx, or_fields _ hy hx]
  rw [BitVec.toNat_eq, hbits]
  simp only [nameTableBase, nametableXOf, nametableYOf, BitVec.toNat_ofNat]
  omega

theorem patternAddr_eq (u : Ppu) :
    patternAddr u =
      BitVec.ofNat 16 ((if u.ctrl.getLsbD 4 then 0x1000 else 0) + 16 * u.ntLatch.toNat + fineYOf u.v) := by
  have hv := u.v.isLt
  have htile := u.ntLatch.isLt
  have htable : (if bitOf u.ctrl 4 then 0x1000#16 else 0x0000).toNat = 2 ^ 12 * (if u.ctrl.getLsbD 4 then 1 else 0) := by
    unfold bitOf; split_ifs <;> rfl
  have hshift : (u.ntLatch.setWidth 16 <<< 4).toNat = 2 ^ 4 * u.ntLatch.toNat := by
    rw [BitVec.toNat_shiftLeft, BitVec.toNat_setWidth, Nat.shiftLeft_eq]; omega
  have hfine : ((v16 u >>> 12) &&& 0x07).toNat = fineYOf u.v :=
    (v16_field u 12 0 3 (by decide)).trans (by unfold fineYOf; omega)
  have hfy : fineYOf u.v < 2 ^ 4 := by unfold fineYOf; omega
  have hbits : (patternAddr u).toNat =
      2 ^ 4 * (2 ^ 8 * (if u.ctrl.getLsbD 4 then 1 else 0) + u.ntLatch.toNat) + fineYOf u.v := by
    rw [← or_fields _ htile hfy, ← htable, ← hshift, ← hfine, ← BitVec.toNat_or, ← BitVec.toNat_or, patternAddr]
    cases bitOf u.ctrl 4 <;> rfl
  rw [BitVec.toNat_eq, hbits, BitVec.toNat_ofNat]
  split_ifs <;> omega

/-! ## The palette selector -/

/-- A single bit of `v` as a number. -/
theorem and_twoPow_ne_zero_iff (v : BitVec 15) {i : Nat} (hi : i < 15) :
    v &&& BitVec.twoPow 15 i ≠ 0 ↔ v.toNat / 2 ^ i % 2 = 1 := by
  have hpow : ∀ i < 15, BitVec.twoPow 15 i ≠ 0 := by decide
  have hbit : v.getLsbD i = true ↔ v.toNat / 2 ^ i % 2 = 1 := by
    rw [BitVec.getLsbD, Nat.testBit_eq_decide_div_mod_eq, decide_eq_true_iff]
  rw [BitVec.and_twoPow, ← hbit]
  split_ifs with h
  · exact iff_of_true (hpow i hi) h
  · exact iff_of_false (not_not.2 rfl) h

theorem attrSelect_toNat (v : BitVec 15) (b : Byte) :
    (attrSelect v b).toNat = b.toNat / 2 ^ (4 * (coarseYOf v / 2 % 2) + 2 * (coarseXOf v / 2 % 2)) % 4 := by
  have hlow : ∀ c : Byte, ((c &&& 0x03).setWidth 2).toNat = c.toNat % 4 := by decide +kernel
  have hy : v &&& 0x0040 ≠ 0 ↔ coarseYOf v / 2 % 2 = 1 := by
    refine (and_twoPow_ne_zero_iff v (i := 6) (by decide)).trans ?_
    unfold coarseYOf; omega
  have hx : v &&& 0x0002 ≠ 0 ↔ coarseXOf v / 2 % 2 = 1 := by
    refine (and_twoPow_ne_zero_iff v (i := 1) (by decide)).trans ?_
    unfold coarseXOf; omega
  simp only [attrSelect, hlow, hy, hx]
  rcases Nat.mod_two_eq_zero_or_one (coarseYOf v / 2) with h | h <;>
    rcases Nat.mod_two_eq_zero_or_one (coarseXOf v / 2) with h' | h' <;>
    simp [h, h', Nat.shiftRight_eq_div_pow]

theorem selector_low_iff (sel : BitVec 2) : sel.getLsbD 0 = true ↔ sel.toNat % 2 = 1 := by revert sel; decide

theorem selector_high_iff (sel : BitVec 2) : sel.getLsbD 1 = true ↔ sel.toNat / 2 = 1 := by revert sel; decide

end Sys2Proof.Machine
end

section
/-! SUPPORT. The eight dots of a fetch cycle: the phases one after another, the dots that run them, and what the reload
leaves in the shifters (47_ppu_dot_pipeline.md R358, R359, R365, R366). -/

namespace Sys2Proof.Machine

open Sys2Proof.Claims

/-! ## The phases of a fetch cycle -/

/-- The first `j` dots of a fetch cycle: each shifts and runs its phase. -/
def cyclePhases (cart : Option Cartridge) : Nat → Ppu → Ppu
  | 0, u => u
  | j + 1, u => fetchPhase cart j (shiftAll (cyclePhases cart j u))

theorem cyclePhases_frame (cart : Option Cartridge) (j : Nat) (u : Ppu) :
    cyclePhases cart j u = u.withPipeline (cyclePhases cart j u) := by
  induction j with
  | zero => rfl
  | succ j ih => rw [cyclePhases, fetchPhase_frame, ih]; rfl

/-- The tile index that a fetch cycle reads. -/
def tileByte (cart : Option Cartridge) (u : Ppu) : Byte := ppuRead cart u (tileAddr u)

/-- The palette selector that a fetch cycle reads. -/
def tileSelector (cart : Option Cartridge) (u : Ppu) : BitVec 2 := attrSelect u.v (ppuRead cart u (attrAddr u))

/-- The address of the low pattern byte that a fetch cycle reads. -/
def rowAddr (cart : Option Cartridge) (u : Ppu) : Word := patternAddr { u with ntLatch := tileByte cart u }

/-- A PPU after `j` shifts with the latches given. -/
def inCycle (u : Ppu) (j : Nat) (nt : Byte) (sel : BitVec 2) (lo hi : Byte) : Ppu :=
  { u with
    shPatLo := u.shPatLo <<< j, shPatHi := u.shPatHi <<< j, shAttrLo := u.shAttrLo <<< j, shAttrHi := u.shAttrHi <<< j
    ntLatch := nt, atLatch := sel, loLatch := lo, hiLatch := hi }

section
variable (cart : Option Cartridge) (u : Ppu) (j : Nat) (nt : Byte) (sel : BitVec 2) (lo hi : Byte)

theorem inCycle_zero : inCycle u 0 u.ntLatch u.atLatch u.loLatch u.hiLatch = u := by
  simp only [inCycle, BitVec.shiftLeft_zero]

theorem shiftAll_inCycle : shiftAll (inCycle u j nt sel lo hi) = inCycle u (j + 1) nt sel lo hi := by
  simp only [shiftAll, inCycle, BitVec.shiftLeft_add]

theorem fetchTile_inCycle :
    fetchTile cart (inCycle u j nt sel lo hi) = inCycle u j (tileByte cart u) sel lo hi := rfl

theorem fetchAttr_inCycle :
    fetchAttr cart (inCycle u j nt sel lo hi) = inCycle u j nt (tileSelector cart u) lo hi := rfl

theorem fetchLow_inCycle :
    fetchLow cart (inCycle u j (tileByte cart u) sel lo hi) =
      inCycle u j (tileByte cart u) sel (ppuRead cart u (rowAddr cart u)) hi := rfl

theorem fetchHigh_inCycle :
    fetchHigh cart (inCycle u j (tileByte cart u) sel lo hi) =
      inCycle u j (tileByte cart u) sel lo (ppuRead cart u (rowAddr cart u + 8)) := rfl

/-- The phases of a whole cycle: eight shifts, the four fetches, the reload. -/
theorem cyclePhases_eight :
    cyclePhases cart 8 u =
      reload (inCycle u 8 (tileByte cart u) (tileSelector cart u) (ppuRead cart u (rowAddr cart u))
        (ppuRead cart u (rowAddr cart u + 8))) := by
  conv_lhs => rw [← inCycle_zero u]
  simp only [cyclePhases, fetchPhase, shiftAll_inCycle, fetchTile_inCycle, fetchAttr_inCycle, fetchLow_inCycle,
    fetchHigh_inCycle]

end

/-! ## The dots of a fetch cycle -/

/-- A PPU with the raster dot replaced. -/
def Ppu.withDot (u : Ppu) (d : Nat) : Ppu := { u with dot := d }

@[simp] theorem withDot_dot (u : Ppu) (d : Nat) : (u.withDot d).dot = d := rfl

/-- The only scroll update that falls on a fetch dot: `IncY` at dot 256. -/
def nextRow (d : Nat) (u : Ppu) : Ppu := { u with v := if d = 256 then incY u.v else u.v }

theorem nextRow_of_ne {d : Nat} (h : d ≠ 256) (u : Ppu) : nextRow d u = u := by rw [nextRow, if_neg h]

theorem fetchPhase_withDot (cart : Option Cartridge) (phase d : Nat) (u : Ppu) :
    fetchPhase cart phase (u.withDot d) = (fetchPhase cart phase u).withDot d := by
  unfold fetchPhase
  split <;> rfl

theorem shiftAll_withDot (d : Nat) (u : Ppu) : shiftAll (u.withDot d) = (shiftAll u).withDot d := rfl

theorem scrollWork_fetchDot (u : Ppu) {d : Nat} (h : fetchDot d = true) :
    scrollWork (u.withDot d) = (nextRow d u).withDot d := by
  rw [fetchDot_iff] at h
  have hcopyX : d ≠ 257 := by omega
  have hcopyY : ¬((u.withDot d).scanline = 261 ∧ 280 ≤ d ∧ d ≤ 304) := by omega
  rw [scrollWork, withDot_dot, if_neg hcopyX, if_neg hcopyY, nextRow]
  split_ifs <;> rfl

theorem redundantFetch_fetchDot (cart : Option Cartridge) (u : Ppu) {d : Nat} (h : fetchDot d = true) :
    redundantFetch cart (u.withDot d) = u.withDot d := by
  rw [fetchDot_iff] at h
  rw [redundantFetch, withDot_dot, if_neg (by omega)]

theorem advance_fetchDot (u : Ppu) {d : Nat} (h : fetchDot d = true) : advance (u.withDot d) = u.withDot (d + 1) := by
  rw [fetchDot_iff] at h
  rw [advance, withDot_dot, if_neg (by omega)]; rfl

/-- A fetch dot shifts and runs its phase; dot 256 also moves `v` one row on. -/
theorem pipelineDot_fetchDot {g : Config.RenderGating} {u : Ppu} (cart : Option Cartridge) {d : Nat}
    (hline : renderLine u.scanline = true) (hon : rendering g u = true) (hd : fetchDot d = true) :
    pipelineDot g cart (u.withDot d) =
      (nextRow d (fetchPhase cart ((d - 1) % 8) (shiftAll u))).withDot (d + 1) := by
  have hfetch : fetchWork cart (u.withDot d) = (fetchPhase cart ((d - 1) % 8) (shiftAll u)).withDot d := by
    rw [← fetchPhase_withDot, ← shiftAll_withDot]
    exact if_pos hd
  rw [pipelineDot, pipelineWork_active (u := u.withDot d) cart hline hon, hfetch, scrollWork_fetchDot _ hd,
    redundantFetch_fetchDot cart _ hd, advance_fetchDot _ hd]

section
variable {g : Config.RenderGating} {u : Ppu} (cart : Option Cartridge) {k : Nat}
  (hline : renderLine u.scanline = true) (hon : rendering g u = true) (hk : k < 32 ∨ k = 40 ∨ k = 41)
include hline hon hk

/-- A dot of a fetch cycle does its phase; the last of the cycle `k = 31` also moves `v` one row on. -/
theorem pipelineDot_cyclePhases {j : Nat} (hj : j ≤ 7) :
    pipelineDot g cart ((cyclePhases cart j u).withDot (8 * k + 1 + j)) =
      (nextRow (8 * k + 1 + j) (cyclePhases cart (j + 1) u)).withDot (8 * k + 1 + (j + 1)) := by
  have hd : fetchDot (8 * k + 1 + j) = true := (fetchDot_iff _).2 (by omega)
  have hphase : (8 * k + 1 + j - 1) % 8 = j := by omega
  have hline' : renderLine (cyclePhases cart j u).scanline = true := by rw [cyclePhases_frame]; exact hline
  have hon' : rendering g (cyclePhases cart j u) = true := by rw [cyclePhases_frame]; exact hon
  rw [pipelineDot_fetchDot cart hline' hon' hd, hphase]; rfl

/-- Before its last dot a fetch cycle has done its phases alone. -/
theorem pipelineDot_iterate {j : Nat} (hdot : u.dot = 8 * k + 1) (hj : j ≤ 7) :
    (pipelineDot g cart)^[j] u = (cyclePhases cart j u).withDot (8 * k + 1 + j) := by
  induction j with
  | zero => rw [Nat.add_zero, ← hdot]; rfl
  | succ j ih =>
    rw [Function.iterate_succ_apply', ih (by omega), pipelineDot_cyclePhases cart hline hon hk (by omega),
      nextRow_of_ne (by omega)]

/-- The eight dots of a fetch cycle. -/
theorem pipelineDot_iterate_eight (hdot : u.dot = 8 * k + 1) :
    (pipelineDot g cart)^[8] u = (nextRow (8 * k + 8) (cyclePhases cart 8 u)).withDot (8 * k + 9) := by
  rw [Function.iterate_succ_apply', pipelineDot_iterate cart hline hon hk hdot (Nat.le_refl 7),
    pipelineDot_cyclePhases cart hline hon hk (Nat.le_refl 7)]

end

/-! ## What a cycle leaves in the shifters -/

/-- Eight shifts leave the low byte free for the reload. -/
theorem loadLow_shiftLeft (sh : BitVec 16) (b : Byte) : loadLow (sh <<< 8) b = (sh <<< 8) ||| b.setWidth 16 := by
  have hmask : (sh <<< 8) &&& 0xFF00#16 = sh <<< 8 := by
    rw [show 0xFF00#16 = BitVec.allOnes 16 <<< 8 by decide, ← BitVec.shiftLeft_and_distrib, BitVec.and_allOnes]
  exact congrArg (· ||| b.setWidth 16) hmask

theorem loadLow_shiftLeft_ite (sh : BitVec 16) (p : Prop) [Decidable p] :
    loadLow (sh <<< 8) (if p then 0xFF else 0x00) = (sh <<< 8) ||| (if p then 0x00FF else 0x0000) := by
  rw [loadLow_shiftLeft]
  split_ifs <;> rfl

/-- The fetch cycle in terms of what it reads: the shifters, shifted up, take in the row's two pattern bytes and the palette
selector, and `v` moves one tile on. -/
theorem ppuRun_cycle {g : Config.RenderGating} {u : Ppu} (cart : Option Cartridge) {k : Nat}
    (hline : renderLine u.scanline = true) (hon : rendering g u = true) (hk : k < 32 ∨ k = 40 ∨ k = 41)
    (hdot : u.dot = 8 * k + 1) :
    let after := ppuRun g cart 8 u
    after.shPatLo = (u.shPatLo <<< 8) ||| (ppuRead cart u (rowAddr cart u)).setWidth 16 ∧
    after.shPatHi = (u.shPatHi <<< 8) ||| (ppuRead cart u (rowAddr cart u + 8)).setWidth 16 ∧
    after.shAttrLo = (u.shAttrLo <<< 8) ||| (if (tileSelector cart u).getLsbD 0 then 0x00FF else 0x0000) ∧
    after.shAttrHi = (u.shAttrHi <<< 8) ||| (if (tileSelector cart u).getLsbD 1 then 0x00FF else 0x0000) ∧
    after.v = (if k = 31 then incY (incX u.v) else incX u.v) := by
  have hlast : 8 * k + 8 = 256 ↔ k = 31 := by omega
  dsimp only
  rw [ppuRun_eq, pipelineDot_iterate_eight cart hline hon hk hdot, cyclePhases_eight, ← loadLow_shiftLeft,
    ← loadLow_shiftLeft, ← loadLow_shiftLeft_ite, ← loadLow_shiftLeft_ite]
  exact ⟨rfl, rfl, rfl, rfl, if_congr hlast rfl rfl⟩

/-! ## What a cycle reads, by the fields of `v` -/

theorem rowAddr_eq (cart : Option Cartridge) (u : Ppu) :
    rowAddr cart u =
      BitVec.ofNat 16 ((if u.ctrl.getLsbD 4 then 0x1000 else 0) + 16 * (tileByte cart u).toNat + fineYOf u.v) :=
  patternAddr_eq _

theorem ofNat_add_eight (n : Nat) : BitVec.ofNat 16 n + 8 = BitVec.ofNat 16 (n + 8) := (BitVec.ofNat_add n 8).symm

theorem tileSelector_toNat (cart : Option Cartridge) (u : Ppu) :
    (tileSelector cart u).toNat =
      (ppuRead cart u (attrAddr u)).toNat / 2 ^ (4 * (coarseYOf u.v / 2 % 2) + 2 * (coarseXOf u.v / 2 % 2)) % 4 :=
  attrSelect_toNat _ _

end Sys2Proof.Machine
end

section

namespace Sys2Proof.Proofs

open Sys2Proof.Machine

/-- Settles O54: the cycle by what it reads, and the addresses and the selector of those reads by the fields of `v`. -/
theorem fetchCycleLoadsOneTileRow : Obligations.FetchCycleLoadsOneTileRow := by
  unfold Obligations.FetchCycleLoadsOneTileRow
  intro cart u k hk hdot hline hmask
  have hcycle := ppuRun_cycle cart ((renderLine_iff _).2 hline) ((rendering_maskGated_iff u).2 hmask) hk hdot
  simp only [selector_low_iff, selector_high_iff, tileSelector_toNat, attrAddr_eq, rowAddr_eq, ofNat_add_eight,
    tileByte, tileAddr_eq] at hcycle
  exact hcycle

end Sys2Proof.Proofs
end

section
/-! SUPPORT. The invariant across the transitions between ticks, the NMI latch after a tick, the CPU reset in every state
(60_exceptions.md R402, R403, R410 to R412; 70_reset_and_hazards.md R440, R441, R446). -/

namespace Sys2Proof.Machine

open Sys2Proof.Claims

/-! ## The CPU reset -/

/-- The CPU reset in every state: the registers of R441, `PC` from the vector, nothing else. -/
theorem cpuReset_eq (s : State) :
    cpuReset s = { s with cpu := Cpu.reset (wordOf (peek (resetVector + 1) s) (peek resetVector s)) } := by
  rw [cpuReset, readVector_high (by decide) (by decide) rfl]

/-- With no cartridge the vector reads 0x0000, the `PC` after power-on. -/
theorem cpuReset_boot (init : PowerOn) : cpuReset (State.boot init) = State.boot init := by
  have hvector : wordOf (peek (resetVector + 1) (State.boot init)) (peek resetVector (State.boot init)) = 0x0000 := by
    rw [peek_mapped (by decide), peek_mapped (by decide)]
    exact (by decide : wordOf 0x00 0x00 = 0x0000)
  rw [cpuReset_eq, hvector]; rfl

/-! ## The masked interrupt -/

theorem bitOf_two_iff (p : Byte) : bitOf p 2 = true ↔ ¬ p &&& 0x04 = 0 := by
  revert p; decide +kernel

theorem cpuIrq_eq_entered (s : State) :
    cpuIrq s = if s.cpu.p &&& 0x04 = 0 then entered irqVector Config.intCycles s else s := by
  have hentry : (interrupt irqVector s).addCyc Config.intCycles = entered irqVector Config.intCycles s := by
    rw [interrupt_eq_entered (by decide) (by decide)]; rfl
  simp only [cpuIrq, bitOf_two_iff, ite_not, hentry]

/-! ## The invariant -/

theorem statusRegisterOk_reset (vector : Word) : statusRegisterOk (Cpu.reset vector) = true := by
  simp [statusRegisterOk, Cpu.reset]

theorem ppuStatusOk_powerOn (init : PowerOn) : ppuStatusOk (Ppu.powerOn init) = true := by
  simp [ppuStatusOk, Ppu.powerOn]

theorem boot_inv {init : PowerOn} (h : init.Ok) : (State.boot init).Inv := by
  obtain ⟨hram, hnt0, hnt1, hpal, hipat, hfb⟩ := h
  have hmem : ppuMemoriesOk (Ppu.powerOn init) = true := by
    simp only [ppuMemoriesOk, Ppu.powerOn, hnt0, hnt1, hpal, hipat, hfb, Bool.and_self]
  exact ⟨hram, hmem, rfl, statusRegisterOk_reset _, rfl, ppuStatusOk_powerOn init, rfl, rfl⟩

theorem cpuReset_inv {s : State} (h : s.Inv) : (cpuReset s).Inv := by
  obtain ⟨hok, -, hnmi⟩ := (inv_iff s).1 h
  rw [cpuReset_eq]
  exact (inv_iff _).2 ⟨⟨hok.ram, hok.ppu, hok.cart⟩, statusRegisterOk_reset _, hnmi⟩

theorem withCart_inv {s : State} {cart : Option Cartridge} (h : s.Inv) (hc : cartOk cart = true) :
    State.Inv { s with cart := cart } := by
  obtain ⟨hok, hp, hnmi⟩ := (inv_iff s).1 h
  exact (inv_iff _).2 ⟨⟨hok.ram, hok.ppu, hc⟩, hp, hnmi⟩

/-- The cartridge built from a well-formed image that the core can run is one the invariant allows. -/
theorem cartOk_buildCartridge {img : CartImage} (hs : supported img = true) (h : imageOk img = true) :
    cartOk (some (buildCartridge img)) = true := by
  obtain ⟨hid, hprg, hmir⟩ := (supported_iff img).1 hs
  simp only [imageOk, Bool.and_eq_true] at h
  simp [cartOk, buildCartridge, mapperOk, hid, hprg, hmir, h.1, h.2]

theorem cpuIrq_inv {s : State} (h : s.Inv) : (cpuIrq s).Inv := by
  unfold cpuIrq
  split
  · exact h
  · have hmoves : Moves .brk s ((interrupt irqVector s).addCyc Config.intCycles) :=
      (Moves.refl.interrupt irqVector).addCyc _
    exact hmoves.inv h (hmoves.statusRegisterOk (by decide) ((inv_iff s).1 h).2.1)

/-- Every event keeps the invariant, under every choice of pacing, phase and gating. -/
theorem applyEvent_inv (p : Config.Params) {e : Event} {s t : State} (he : e.Ok = true) (hs : s.Inv)
    (h : applyEvent p e s = .next t) : t.Inv := by
  cases e with
  | tick => exact masterTick_inv p hs h
  | reset => cases h; exact cpuReset_inv hs
  | insert img =>
    simp only [applyEvent, insertCartridge] at h
    split_ifs at h with hsup
    · cases h; exact cpuReset_inv (withCart_inv (s := s) hs (cartOk_buildCartridge hsup he))
    · cases h; exact hs
  | remove => cases h; exact withCart_inv hs rfl
  | irq => cases h; exact cpuIrq_inv hs

/-! ## The NMI latch -/

/-- No move of the CPU touches the NMI latch. -/
theorem Moves.nmiPending {i : Instr} {s t : State} (h : Moves i s t) : t.ppu.nmiPending = s.ppu.nmiPending :=
  (congrArg Ppu.nmiPending h.keeps_romAndRaster.2 :)

theorem pollNmi_nmiPending (s : State) : (pollNmi Config.params s).ppu.nmiPending = false := by
  unfold pollNmi
  split
  · exact (cpuNmi_moves _).nmiPending
  · next h => simpa using h

theorem cpuStep_nmiPending {s t : State} (h : cpuStep s = .next t) : t.ppu.nmiPending = s.ppu.nmiPending :=
  (exec_moves h).nmiPending.trans (fetchInstr_moves s).nmiPending

/-! ## The tick -/

/-- The machine in a tick before its CPU part: after the PPU step and the poll under the default parameters. -/
def polled (s : State) : State := pollNmi Config.params (stepPpu Config.params s)

/-- The step as a whole instruction on every third tick, after the PPU step and the poll. -/
theorem step_eq (s : State) :
    step s =
      if s.tick % 3 = 0 then mapNext countTick (cpuStep (polled s)) else .next { polled s with tick := s.tick + 1 } := by
  have htick : (polled s).tick = s.tick := pollNmi_tick _
  have hcpu : cpuTick Config.params (polled s).tick = true ↔ (polled s).tick % 3 = 0 := beq_iff_eq
  rw [← htick]
  unfold step masterTick
  exact if_congr hcpu rfl rfl

end Sys2Proof.Machine
end

section

namespace Sys2Proof.Proofs

open Sys2Proof.Machine Sys2Proof.Claims

/-- Settles O13, by induction on the run: power-on meets the invariant and every event keeps it. -/
theorem reachableStatesMeetTheMachineInvariant : Obligations.ReachableStatesMeetTheMachineInvariant := by
  unfold Obligations.ReachableStatesMeetTheMachineInvariant
  intro p s h
  induction h with
  | boot init hinit => exact boot_inv hinit
  | event e s t _ he hstep ih => exact applyEvent_inv p he ih hstep

/-- Settles O11: the memories of `State.reset` list nothing, so they are those of a power-on. -/
theorem resetMeetsTheMachineInvariant : Obligations.ResetMeetsTheMachineInvariant := by
  unfold Obligations.ResetMeetsTheMachineInvariant
  exact boot_inv (by decide)

/-- Settles O14: the poll clears the latch and the instruction after it does not touch it. -/
theorem noNmiIsPendingAfterATick : Obligations.NoNmiIsPendingAfterATick := by
  unfold Obligations.NoNmiIsPendingAfterATick
  intro s t h
  rw [step_eq] at h
  split_ifs at h
  · obtain ⟨u, hu, rfl⟩ := mapNext_eq_next h
    exact (cpuStep_nmiPending hu).trans (pollNmi_nmiPending _)
  · cases h
    exact pollNmi_nmiPending _

/-- Settles O41: both vectors lie above the ports, and the mask is bit 2 of `P`. -/
theorem interruptEntries : Obligations.InterruptEntries := by
  unfold Obligations.InterruptEntries
  intro s
  exact ⟨interrupt_eq_entered (by decide) (by decide) s, interrupt_eq_entered (by decide) (by decide) s,
    cpuNmi_eq_entered s, cpuIrq_eq_entered s⟩

/-- Settles O7: `step_eq` with `polled`, `countTick` and `cpuStep` written out. -/
theorem tickOrder : Obligations.TickOrder := by
  unfold Obligations.TickOrder
  intro s
  exact step_eq s

/-- Settles O58: the two vector bytes are read above the ports. -/
theorem cpuResetResult : Obligations.CpuResetResult := by
  unfold Obligations.CpuResetResult
  exact cpuReset_eq

/-- Settles O59: with no cartridge the vector reads 0x0000, the `PC` that the state has. -/
theorem powerOnState : Obligations.PowerOnState := by
  unfold Obligations.PowerOnState
  intro init
  exact ⟨cpuReset_boot init, rfl, rfl, rfl, rfl, rfl, rfl, rfl, rfl, rfl⟩

end Sys2Proof.Proofs
end
